-- ==== Sys2Proof/Word.lean ====
section
/-! DEFINITION. The value types of the core (spec/00_scope.md R8, R10, R11): bytes, 16-bit words, the
instruction fields of 4 and 12 bits, and the indexes of the sixteen registers and the sixteen keys. -/

namespace Sys2Proof

/-- An 8-bit value: a general register, a timer, a memory cell, a framebuffer cell, the field `kk` (R8, R11). -/
abbrev Byte := BitVec 8

/-- A 16-bit value: an instruction word, `PC`, `I`, a stack slot, `LASTINSN` (R8, R10). -/
abbrev Word := BitVec 16

/-- A 4-bit field of an instruction word: the group `G`, the count or function `n` (R13). -/
abbrev Nibble := BitVec 4

/-- The 12-bit address field `nnn` (R13). -/
abbrev Addr12 := BitVec 12

/-- The number of a general register `V0`..`VF`, the fields `x` and `y` (R13, R16). -/
abbrev Reg := Fin 16

/-- The code of a key, 0x0..0xF (R29, R31). -/
abbrev KeyCode := Fin 16

end Sys2Proof
end

