-- ==== Sys2Proof/Config.lean ====
section
/-! DEFINITION. The implementation parameters of spec/00_scope.md R9 and the free values. A parameter is
a field of `Config`; a `Config` stands in the state as data that no transaction changes (log entry 2), so
a statement over all states holds for every value of every parameter. -/

namespace Sys2Proof

/-- `GROUP0_KEY`: the secondary key of group 0x0 (30_encoding.md R59, D2). -/
inductive Group0Key where
  | byte
  | nibble
  | addr
deriving DecidableEq, Repr

/-- `FLAG_DEST_POLICY`: what VF holds after a flag-setting ALU operation with x = 0xF (42_alu.md R91, D3).
`flagThenResult` is the spec's `flag_then_result`, `openDraw` is the spec's `open`. -/
inductive FlagDestPolicy where
  | flagThenResult
  | openDraw
deriving DecidableEq, Repr

/-- `SUB_COMPARE`: the comparison of `8xy5` and `8xy7` (42_alu.md R92, D4). -/
inductive SubCompare where
  | unsigned
  | signed8
deriving DecidableEq, Repr

/-- `PIXEL_XOR_FORM`: the value a sprite pixel XORs into a cell (44_display.md R113, D5). -/
inductive PixelXorForm where
  | masked
  | normalized
deriving DecidableEq, Repr

/-- `LASTKEY_RECORD`: which key-down events record the key (45_keypad_and_timers.md R129, D7). -/
inductive LastKeyRecord where
  | lockedOnly
  | everyPress
deriving DecidableEq, Repr

/-- The parameters of R9. `origin` is `ORIGIN`, fixed at construction (R35, R136). -/
structure Config where
  origin        : Word
  group0Key     : Group0Key
  flagDest      : FlagDestPolicy
  subCompare    : SubCompare
  pixelXor      : PixelXorForm
  lastKeyRecord : LastKeyRecord
  resetDirty    : Bool
deriving DecidableEq, Repr

/-- The default value of every parameter (R9). -/
def Config.standard : Config where
  origin        := 0x200#16
  group0Key     := .byte
  flagDest      := .flagThenResult
  subCompare    := .unsigned
  pixelXor      := .masked
  lastKeyRecord := .lockedOnly
  resetDirty    := true

/-- The largest admissible `ORIGIN` (R9, D21): a first fetch must be possible. -/
def Config.maxOrigin : Nat := 0xFFE

/-- FREE VALUE: the parameter `RNG` (R9, R104, D14), the byte of the n-th draw; any byte, under no law
(log entry 3). -/
opaque Config.rngByte : Nat → Byte

/-- FREE VALUE: the final VF of a flag-setting ALU operation with x = 0xF under `FLAG_DEST_POLICY = open`,
at the n-th draw; any byte (R91, D3, C18; log entry 4). -/
opaque Config.flagByte : Nat → Byte

end Sys2Proof
end

