-- ==== Sys2Proof/Syntax.lean ====
section
/-! DEFINITION. The instructions: one constructor for each row of spec/opcode_table.json (30_encoding.md
R64, R65). The operands are the fields the row names; bits that a row neither fixes nor names (the low
nibble of `5xyn` and `9xyn`, the register fields of a group-8 no-op, x of `00E0`) are no operands (log entry 14). -/

namespace Sys2Proof

inductive Instr where
  /-- `00E0` CLS (R114). -/
  | cls
  /-- `00EE` RET (R81). -/
  | ret
  /-- `1nnn` JP nnn (R82). -/
  | jp (nnn : Addr12)
  /-- `2nnn` CALL nnn (R83). -/
  | call (nnn : Addr12)
  /-- `3xkk` SE Vx, kk (R85). -/
  | seImm (x : Reg) (kk : Byte)
  /-- `4xkk` SNE Vx, kk (R86). -/
  | sneImm (x : Reg) (kk : Byte)
  /-- `5xyn` SE Vx, Vy, for every n (R87, R63). -/
  | seReg (x y : Reg)
  /-- `6xkk` LD Vx, kk (R93). -/
  | ldImm (x : Reg) (kk : Byte)
  /-- `7xkk` ADD Vx, kk (R95). -/
  | addImm (x : Reg) (kk : Byte)
  /-- `8xy0` LD Vx, Vy (R94). -/
  | ldReg (x y : Reg)
  /-- `8xy1` OR Vx, Vy (R99). -/
  | orReg (x y : Reg)
  /-- `8xy2` AND Vx, Vy (R100). -/
  | andReg (x y : Reg)
  /-- `8xy3` XOR Vx, Vy (R101). -/
  | xorReg (x y : Reg)
  /-- `8xy4` ADD Vx, Vy (R96). -/
  | addReg (x y : Reg)
  /-- `8xy5` SUB Vx, Vy (R97). -/
  | subReg (x y : Reg)
  /-- `8xy6` SHR Vx; y is encoded and ignored (R102). -/
  | shrReg (x y : Reg)
  /-- `8xy7` SUBN Vx, Vy (R98). -/
  | subnReg (x y : Reg)
  /-- `8xyE` SHL Vx; y is encoded and ignored (R103). -/
  | shlReg (x y : Reg)
  /-- `8xy8` tolerated no-op (R60, R76). -/
  | nop8Fn8
  /-- `8xy9` tolerated no-op (R60, R76). -/
  | nop8Fn9
  /-- `8xyA` tolerated no-op (R60, R76). -/
  | nop8FnA
  /-- `8xyB` tolerated no-op (R60, R76). -/
  | nop8FnB
  /-- `8xyC` tolerated no-op (R60, R76). -/
  | nop8FnC
  /-- `8xyD` tolerated no-op (R60, R76). -/
  | nop8FnD
  /-- `8xyF` tolerated no-op (R60, R76). -/
  | nop8FnF
  /-- `9xyn` SNE Vx, Vy, for every n (R88, R63). -/
  | sneReg (x y : Reg)
  /-- `Annn` LD I, nnn (R105). -/
  | ldI (nnn : Addr12)
  /-- `Bnnn` JP V0, nnn (R84). -/
  | jpV0 (nnn : Addr12)
  /-- `Cxkk` RND Vx, kk (R104). -/
  | rnd (x : Reg) (kk : Byte)
  /-- `Dxyn` DRW Vx, Vy, n (R115). -/
  | drw (x y : Reg) (n : Nibble)
  /-- `Ex9E` SKP Vx (R119). -/
  | skp (x : Reg)
  /-- `ExA1` SKNP Vx (R120). -/
  | sknp (x : Reg)
  /-- `Fx07` LD Vx, DT (R121). -/
  | ldVxDt (x : Reg)
  /-- `Fx0A` LD Vx, K (R124). -/
  | ldVxK (x : Reg)
  /-- `Fx15` LD DT, Vx (R122). -/
  | ldDtVx (x : Reg)
  /-- `Fx18` LD ST, Vx (R123). -/
  | ldStVx (x : Reg)
  /-- `Fx1E` ADD I, Vx (R106). -/
  | addIVx (x : Reg)
  /-- `Fx29` LD F, Vx (R107). -/
  | ldFVx (x : Reg)
  /-- `Fx33` LD B, Vx (R108). -/
  | ldBVx (x : Reg)
  /-- `Fx55` LD [I], Vx (R109). -/
  | storeRegs (x : Reg)
  /-- `Fx65` LD Vx, [I] (R110). -/
  | loadRegs (x : Reg)
  /-- Every group-0 word that is neither CLS nor RET: tolerated no-op (R59, R76). -/
  | nop0
  /-- A group-E word whose kk is neither 0x9E nor 0xA1: Unknown-Opcode (R61, R149). -/
  | unknownE (x : Reg) (kk : Byte)
  /-- A group-F word whose kk is none of the nine defined: Unknown-Opcode (R62, R149). -/
  | unknownF (x : Reg) (kk : Byte)
deriving DecidableEq, Repr

end Sys2Proof
end

