-- ==== Sys2Proof/WellFormed.lean ====
section
/-! DEFINITION. Which terms of `Instr` are an instruction the decoder can produce. Every field has exactly
the width the encoding gives it, so the only checks are those of the Unknown-Opcode rows: their `kk` is one
no other row of the group takes (30_encoding.md R61, R62). -/

namespace Sys2Proof

/-- The values of `kk` that select an instruction of group 0xE (R61). -/
def groupEKeys : List Byte := [0x9E#8, 0xA1#8]

/-- The values of `kk` that select an instruction of group 0xF (R62). -/
def groupFKeys : List Byte :=
  [0x07#8, 0x0A#8, 0x15#8, 0x18#8, 0x1E#8, 0x29#8, 0x33#8, 0x55#8, 0x65#8]

/-- An Unknown-Opcode term is well formed when its `kk` is unmapped in its group; every other term is (R65). -/
def Instr.wellFormed : Instr → Bool
  | .unknownE _ kk => !groupEKeys.contains kk
  | .unknownF _ kk => !groupFKeys.contains kk
  | .cls | .ret | .jp _ | .call _ | .seImm _ _ | .sneImm _ _ | .seReg _ _ | .ldImm _ _ | .addImm _ _
  | .ldReg _ _ | .orReg _ _ | .andReg _ _ | .xorReg _ _ | .addReg _ _ | .subReg _ _ | .shrReg _ _
  | .subnReg _ _ | .shlReg _ _ | .nop8Fn8 | .nop8Fn9 | .nop8FnA | .nop8FnB | .nop8FnC | .nop8FnD
  | .nop8FnF | .sneReg _ _ | .ldI _ | .jpV0 _ | .rnd _ _ | .drw _ _ _ | .skp _ | .sknp _ | .ldVxDt _
  | .ldVxK _ | .ldDtVx _ | .ldStVx _ | .addIVx _ | .ldFVx _ | .ldBVx _ | .storeRegs _ | .loadRegs _
  | .nop0 => true

end Sys2Proof
end

