-- ==== Sys2Proof/Decode.lean ====
section
/-! DEFINITION. Instruction words: their fields (30_encoding.md R54, R56), the two-level opcode map
(R58-R64), total on every word (R65), the byte order of a word (R42), and after it the encoder and the
opcode table's rows (spec/opcode_table.json). -/

namespace Sys2Proof

/-! ### Fields of a word (R13, R54) -/

/-- `G = op[15:12]`. -/
def opG (w : Word) : Nibble := w.extractLsb' 12 4

/-- `op[11:8]` as bits. -/
def opXBits (w : Word) : Nibble := w.extractLsb' 8 4

/-- `op[7:4]` as bits. -/
def opYBits (w : Word) : Nibble := w.extractLsb' 4 4

/-- `n = op[3:0]`. -/
def opN (w : Word) : Nibble := w.extractLsb' 0 4

/-- `kk = op[7:0]`. -/
def opKk (w : Word) : Byte := w.extractLsb' 0 8

/-- `nnn = op[11:0]`. -/
def opNnn (w : Word) : Addr12 := w.extractLsb' 0 12

/-- The register a 4-bit field names (R16, R56). -/
def regOf (b : Nibble) : Reg := ⟨b.toNat, b.isLt⟩

/-- The 4-bit field that names a register. -/
def regBits (r : Reg) : Nibble := BitVec.ofNat 4 r.val

/-- `x = op[11:8]`, a register number (R13). -/
def opX (w : Word) : Reg := regOf (opXBits w)

/-- `y = op[7:4]`, a register number (R13). -/
def opY (w : Word) : Reg := regOf (opYBits w)

/-- The high byte of a word, stored at the lower address (R42). -/
def hiByte (w : Word) : Byte := w.extractLsb' 8 8

/-- The low byte of a word. -/
def loByte (w : Word) : Byte := w.extractLsb' 0 8

/-- The word of two consecutive bytes, high byte first (R41, R42). -/
def wordOfBytes (hi lo : Byte) : Word := hi ++ lo

/-! ### The opcode map (R58-R64) -/

/-- Group 0x0, by the secondary key the parameter `GROUP0_KEY` names (R59). -/
def decodeGroup0 (key : Group0Key) (w : Word) : Instr :=
  match key with
  | .byte   => if opKk w = 0xE0#8 then .cls else if opKk w = 0xEE#8 then .ret else .nop0
  | .nibble => if opN w = 0x0#4 then .cls else if opN w = 0xE#4 then .ret else .nop0
  | .addr   => if opNnn w = 0x0E0#12 then .cls else if opNnn w = 0x0EE#12 then .ret else .nop0

/-- Group 0x8, by `n` (R60). -/
def decodeGroup8 (x y : Reg) (n : Nibble) : Instr :=
  match n.toNat with
  | 0x0 => .ldReg x y
  | 0x1 => .orReg x y
  | 0x2 => .andReg x y
  | 0x3 => .xorReg x y
  | 0x4 => .addReg x y
  | 0x5 => .subReg x y
  | 0x6 => .shrReg x y
  | 0x7 => .subnReg x y
  | 0x8 => .nop8Fn8
  | 0x9 => .nop8Fn9
  | 0xA => .nop8FnA
  | 0xB => .nop8FnB
  | 0xC => .nop8FnC
  | 0xD => .nop8FnD
  | 0xE => .shlReg x y
  | _   => .nop8FnF

/-- Group 0xE, by `kk` (R61). -/
def decodeGroupE (x : Reg) (kk : Byte) : Instr :=
  if kk = 0x9E#8 then .skp x else if kk = 0xA1#8 then .sknp x else .unknownE x kk

/-- Group 0xF, by `kk` (R62). -/
def decodeGroupF (x : Reg) (kk : Byte) : Instr :=
  if kk = 0x07#8 then .ldVxDt x
  else if kk = 0x0A#8 then .ldVxK x
  else if kk = 0x15#8 then .ldDtVx x
  else if kk = 0x18#8 then .ldStVx x
  else if kk = 0x1E#8 then .addIVx x
  else if kk = 0x29#8 then .ldFVx x
  else if kk = 0x33#8 then .ldBVx x
  else if kk = 0x55#8 then .storeRegs x
  else if kk = 0x65#8 then .loadRegs x
  else .unknownF x kk

/-- The dispatcher's two-level discriminator (R58): total on every word (R65), a function of the word and
of `GROUP0_KEY` alone (R67). -/
def decodeWord (key : Group0Key) (w : Word) : Instr :=
  match (opG w).toNat with
  | 0x0 => decodeGroup0 key w
  | 0x1 => .jp (opNnn w)
  | 0x2 => .call (opNnn w)
  | 0x3 => .seImm (opX w) (opKk w)
  | 0x4 => .sneImm (opX w) (opKk w)
  | 0x5 => .seReg (opX w) (opY w)
  | 0x6 => .ldImm (opX w) (opKk w)
  | 0x7 => .addImm (opX w) (opKk w)
  | 0x8 => decodeGroup8 (opX w) (opY w) (opN w)
  | 0x9 => .sneReg (opX w) (opY w)
  | 0xA => .ldI (opNnn w)
  | 0xB => .jpV0 (opNnn w)
  | 0xC => .rnd (opX w) (opKk w)
  | 0xD => .drw (opX w) (opY w) (opN w)
  | 0xE => decodeGroupE (opX w) (opKk w)
  | _   => decodeGroupF (opX w) (opKk w)

/-- Why a sequence of bytes holds no instruction: only because it is shorter than one word (R53). -/
inductive DecodeError where
  /-- Fewer than two bytes are left. -/
  | truncated
deriving DecidableEq, Repr

/-- The instruction at the head of a byte sequence and the bytes after it (R41, R53). -/
def decode (key : Group0Key) : List Byte → Except DecodeError (Instr × List Byte)
  | hi :: lo :: rest => .ok (decodeWord key (wordOfBytes hi lo), rest)
  | _                => .error .truncated

/-- The instruction the decoder reads from the word `w` of spec/opcode_table.json's numbering, under the
table's `GROUP0_KEY = byte`: the word's bytes in memory order (R42), then `decode`. -/
def decodeTableWord (nbits w : Nat) : Option Instr :=
  if nbits ≤ 16 then
    match decode Config.standard.group0Key
        [hiByte (BitVec.ofNat 16 (w % 2 ^ nbits)), loByte (BitVec.ofNat 16 (w % 2 ^ nbits))] with
    | .ok (i, _) => some i
    | .error _   => none
  else none

/-! ### The encoder (R54, R64) -/

/-- A word of format A: group and address (R55). -/
def packA (g : Nibble) (nnn : Addr12) : Word := g ++ nnn

/-- A word of formats XK and XF: group, register, byte (R55). -/
def packXK (g : Nibble) (x : Reg) (kk : Byte) : Word := g ++ (regBits x ++ kk : BitVec 12)

/-- A word of formats XY, XYF and XYN: group, two registers, nibble (R55). -/
def packXYN (g : Nibble) (x y : Reg) (n : Nibble) : Word :=
  g ++ (regBits x ++ (regBits y ++ n : BitVec 8) : BitVec 12)

/-- The word of an instruction; bits the instruction does not name are 0 (R68), but for NOP0, whose word
0x0001 is a no-op under every `GROUP0_KEY` (R59; log entry 14). -/
def encode : Instr → Word
  | .cls            => 0x00E0#16
  | .ret            => 0x00EE#16
  | .jp nnn         => packA 0x1#4 nnn
  | .call nnn       => packA 0x2#4 nnn
  | .seImm x kk     => packXK 0x3#4 x kk
  | .sneImm x kk    => packXK 0x4#4 x kk
  | .seReg x y      => packXYN 0x5#4 x y 0x0#4
  | .ldImm x kk     => packXK 0x6#4 x kk
  | .addImm x kk    => packXK 0x7#4 x kk
  | .ldReg x y      => packXYN 0x8#4 x y 0x0#4
  | .orReg x y      => packXYN 0x8#4 x y 0x1#4
  | .andReg x y     => packXYN 0x8#4 x y 0x2#4
  | .xorReg x y     => packXYN 0x8#4 x y 0x3#4
  | .addReg x y     => packXYN 0x8#4 x y 0x4#4
  | .subReg x y     => packXYN 0x8#4 x y 0x5#4
  | .shrReg x y     => packXYN 0x8#4 x y 0x6#4
  | .subnReg x y    => packXYN 0x8#4 x y 0x7#4
  | .shlReg x y     => packXYN 0x8#4 x y 0xE#4
  | .nop8Fn8        => 0x8008#16
  | .nop8Fn9        => 0x8009#16
  | .nop8FnA        => 0x800A#16
  | .nop8FnB        => 0x800B#16
  | .nop8FnC        => 0x800C#16
  | .nop8FnD        => 0x800D#16
  | .nop8FnF        => 0x800F#16
  | .sneReg x y     => packXYN 0x9#4 x y 0x0#4
  | .ldI nnn        => packA 0xA#4 nnn
  | .jpV0 nnn       => packA 0xB#4 nnn
  | .rnd x kk       => packXK 0xC#4 x kk
  | .drw x y n      => packXYN 0xD#4 x y n
  | .skp x          => packXK 0xE#4 x 0x9E#8
  | .sknp x         => packXK 0xE#4 x 0xA1#8
  | .ldVxDt x       => packXK 0xF#4 x 0x07#8
  | .ldVxK x        => packXK 0xF#4 x 0x0A#8
  | .ldDtVx x       => packXK 0xF#4 x 0x15#8
  | .ldStVx x       => packXK 0xF#4 x 0x18#8
  | .addIVx x       => packXK 0xF#4 x 0x1E#8
  | .ldFVx x        => packXK 0xF#4 x 0x29#8
  | .ldBVx x        => packXK 0xF#4 x 0x33#8
  | .storeRegs x    => packXK 0xF#4 x 0x55#8
  | .loadRegs x     => packXK 0xF#4 x 0x65#8
  | .nop0           => 0x0001#16
  | .unknownE x kk  => packXK 0xE#4 x kk
  | .unknownF x kk  => packXK 0xF#4 x kk

/-- The bytes of an instruction in memory order (R42). -/
def encodeBytes (i : Instr) : List Byte := [hiByte (encode i), loByte (encode i)]

/-! ### The rows of spec/opcode_table.json -/

/-- A row of the opcode table: a word is the row's when it agrees with `pattern` on the bits of `mask`
(and no narrower row takes it); `operands` are the bits of the row's fields. -/
structure OpcodeRow where
  mask     : Word
  pattern  : Word
  operands : Word
deriving DecidableEq, Repr

/-- The row of spec/opcode_table.json that a constructor stands for, `GROUP0_KEY = byte`. -/
def opcodeRow : Instr → OpcodeRow
  | .cls          => ⟨0xF0FF, 0x00E0, 0x0000⟩
  | .ret          => ⟨0xF0FF, 0x00EE, 0x0000⟩
  | .jp _         => ⟨0xF000, 0x1000, 0x0FFF⟩
  | .call _       => ⟨0xF000, 0x2000, 0x0FFF⟩
  | .seImm _ _    => ⟨0xF000, 0x3000, 0x0FFF⟩
  | .sneImm _ _   => ⟨0xF000, 0x4000, 0x0FFF⟩
  | .seReg _ _    => ⟨0xF000, 0x5000, 0x0FF0⟩
  | .ldImm _ _    => ⟨0xF000, 0x6000, 0x0FFF⟩
  | .addImm _ _   => ⟨0xF000, 0x7000, 0x0FFF⟩
  | .ldReg _ _    => ⟨0xF00F, 0x8000, 0x0FF0⟩
  | .orReg _ _    => ⟨0xF00F, 0x8001, 0x0FF0⟩
  | .andReg _ _   => ⟨0xF00F, 0x8002, 0x0FF0⟩
  | .xorReg _ _   => ⟨0xF00F, 0x8003, 0x0FF0⟩
  | .addReg _ _   => ⟨0xF00F, 0x8004, 0x0FF0⟩
  | .subReg _ _   => ⟨0xF00F, 0x8005, 0x0FF0⟩
  | .shrReg _ _   => ⟨0xF00F, 0x8006, 0x0FF0⟩
  | .subnReg _ _  => ⟨0xF00F, 0x8007, 0x0FF0⟩
  | .shlReg _ _   => ⟨0xF00F, 0x800E, 0x0FF0⟩
  | .nop8Fn8      => ⟨0xF00F, 0x8008, 0x0000⟩
  | .nop8Fn9      => ⟨0xF00F, 0x8009, 0x0000⟩
  | .nop8FnA      => ⟨0xF00F, 0x800A, 0x0000⟩
  | .nop8FnB      => ⟨0xF00F, 0x800B, 0x0000⟩
  | .nop8FnC      => ⟨0xF00F, 0x800C, 0x0000⟩
  | .nop8FnD      => ⟨0xF00F, 0x800D, 0x0000⟩
  | .nop8FnF      => ⟨0xF00F, 0x800F, 0x0000⟩
  | .sneReg _ _   => ⟨0xF000, 0x9000, 0x0FF0⟩
  | .ldI _        => ⟨0xF000, 0xA000, 0x0FFF⟩
  | .jpV0 _       => ⟨0xF000, 0xB000, 0x0FFF⟩
  | .rnd _ _      => ⟨0xF000, 0xC000, 0x0FFF⟩
  | .drw _ _ _    => ⟨0xF000, 0xD000, 0x0FFF⟩
  | .skp _        => ⟨0xF0FF, 0xE09E, 0x0F00⟩
  | .sknp _       => ⟨0xF0FF, 0xE0A1, 0x0F00⟩
  | .ldVxDt _     => ⟨0xF0FF, 0xF007, 0x0F00⟩
  | .ldVxK _      => ⟨0xF0FF, 0xF00A, 0x0F00⟩
  | .ldDtVx _     => ⟨0xF0FF, 0xF015, 0x0F00⟩
  | .ldStVx _     => ⟨0xF0FF, 0xF018, 0x0F00⟩
  | .addIVx _     => ⟨0xF0FF, 0xF01E, 0x0F00⟩
  | .ldFVx _      => ⟨0xF0FF, 0xF029, 0x0F00⟩
  | .ldBVx _      => ⟨0xF0FF, 0xF033, 0x0F00⟩
  | .storeRegs _  => ⟨0xF0FF, 0xF055, 0x0F00⟩
  | .loadRegs _   => ⟨0xF0FF, 0xF065, 0x0F00⟩
  | .nop0         => ⟨0xF000, 0x0000, 0x0000⟩
  | .unknownE _ _ => ⟨0xF000, 0xE000, 0x0FFF⟩
  | .unknownF _ _ => ⟨0xF000, 0xF000, 0x0FFF⟩

end Sys2Proof
end

