-- ==== Sys2Proof/Machine/State.lean ====
section
/-! DEFINITION. The state of the core (spec/10_state.md R16-R37), the host transactions it can hold
pending (46_host_operations.md), and the reasons a step stops (60_exceptions.md R148). Plain data. -/

namespace Sys2Proof.Machine

/-- An array of byte cells, addresses strictly rising, no cell listed that holds 0; an unlisted cell reads
0, the value construct and reset give every cell (R36, R37, R38). Holds `MEM[0..4095]` and `FB[0..2047]`. -/
abbrev Memory := List Host.Cell

/-- `SP`, a signed integer in [-1, 15]: `empty` is -1, `top j` is j, the slot of the most recently pushed
return address (R22). -/
inductive StackPointer where
  | empty
  | top (slot : Fin 16)
deriving DecidableEq, Repr

/-- `KBLOCK`, the state of the blocking-read state machine (R30). -/
inductive KeyBlock where
  /-- No wait pending. -/
  | idle
  /-- Waiting for a fresh press. -/
  | locked
  /-- A press was observed, waiting for its release. -/
  | waitingForRelease
  /-- The release was observed, ready to commit. -/
  | unlocked
deriving DecidableEq, Repr

/-- What a tick returns to the host when it does not fault (R77). -/
inductive TickResult where
  /-- `Ok`. -/
  | ok
  /-- `Err(UnknownOpcode{opcode, pc})`: the raw word and the program counter at fetch time (R149). -/
  | unknownOpcode (opcode pc : Word)
deriving DecidableEq, Repr

/-- The host transactions, other than a tick, that change the state (R137, R139, R140, R143). -/
inductive HostOp where
  /-- *load*(bytes) (R137). -/
  | load (bytes : List Byte)
  /-- *reset*() (R139, R167). -/
  | reset
  /-- *key_set*(code, pressed) (R140). -/
  | keySet (code : Nat) (pressed : Bool)
  /-- *clear_dirty*() (R143). -/
  | clearDirty
deriving DecidableEq, Repr

/-- The faults that end the run (R148, R150-R154). All are safe: the model stops where the source leaves
the behaviour undefined, so nothing is claimed of what the hardware does there (R155, D32). -/
inductive Fault where
  /-- F1, raised by `2nnn` with SP = 15 (R150). Safe. -/
  | stackOverflow
  /-- F2, raised by `00EE` with SP = -1 (R151). Safe. -/
  | stackUnderflow
  /-- F3, raised by the fetch, `Dxyn`, `Fx33`, `Fx55`, `Fx65` at an address of 4096 or more; records the
  first address out of range (R152). Safe. -/
  | memoryOutOfRange (addr : Nat)
  /-- F4, raised by `Ex9E` and `ExA1` with Vx of 16 or more; records Vx (R153). Safe. -/
  | keyIndexOutOfRange (index : Byte)
  /-- F5, raised by `Fx1E` when I + Vx exceeds 0xFFFF (R154). Safe. -/
  | indexOverflow
deriving DecidableEq, Repr

/-- The refusals: a host duty that is not met (R146), a draw the parameter `open` forbids a model to rest
on, an end address a run may not name (R173), or an instruction without a meaning. All are safe: the model
stops. -/
inductive Refusal where
  /-- An instruction that has no meaning in the model; raised by an arm of exec only. Safe. -/
  | notModelled (mnemonic : String)
  /-- `Dxyn` with x or y = 0xF under `FLAG_DEST_POLICY = open`; raised by that instruction (R115, D3). Safe. -/
  | drawCoordinateInVF
  /-- *load* of an image that does not fit below 4096; raised by that transaction (R137, D19). Safe. -/
  | loadDoesNotFit
  /-- A key code above 0xF; raised by *key_set* and *is_key_pressed* (R140, R141, D20). Safe. -/
  | keyCodeOutOfRange (code : Nat)
  /-- An `ORIGIN` above 0xFFE; raised by *construct* (R136, D21). Safe. -/
  | originOutOfRange
  /-- An end address above 0xFFE, outside the image, or whose word is not the self-jump; raised by the start
  of a run (R173). Safe. -/
  | endAddressInadmissible
deriving DecidableEq, Repr

/-- The state: every element of 10_state.md (R16-R32), the parameters (R9, R35), and the model's own
bookkeeping (`draws`, `script`, `ticks`, `result`; log entries 3, 6, 8). -/
structure State where
  /-- `V[0..15]`, the general registers `V0`..`VF` (R16). -/
  v        : Vector Byte 16
  /-- `I`, the index register (R19). -/
  i        : Word
  /-- `PC`, the program counter (R20). -/
  pc       : Word
  /-- `SP`, the stack pointer (R22). -/
  sp       : StackPointer
  /-- `STACK[0..15]`, the return addresses (R23). -/
  stack    : Vector Word 16
  /-- `DT`, the delay timer (R24). -/
  dt       : Byte
  /-- `ST`, the sound timer (R25). -/
  st       : Byte
  /-- `MEM[0..4095]` (R26, R38). -/
  mem      : Memory
  /-- `FB[0..2047]`, the framebuffer, row-major (R27, R112). -/
  fb       : Memory
  /-- `DIRTY` (R28). -/
  dirty    : Bool
  /-- `KEYS[0..15]` (R29). -/
  keys     : Vector Bool 16
  /-- `KBLOCK` (R30). -/
  kblock   : KeyBlock
  /-- `LASTKEY` (R31). -/
  lastKey  : KeyCode
  /-- `LASTINSN` (R32). -/
  lastInsn : Word
  /-- The parameters of R9; no transaction changes them (log entry 2). -/
  cfg      : Config
  /-- The model's: how many free bytes have been drawn (log entry 3). -/
  draws    : Nat
  /-- The model's: host transactions not yet delivered, each with the number of completed ticks after
  which it is (R172; log entry 8). -/
  script   : List (Nat × HostOp)
  /-- The model's: ticks completed since the launch (R172; log entry 8). -/
  ticks    : Nat
  /-- The model's: what the last tick returned to the host (R77; log entry 6). -/
  result   : TickResult
deriving DecidableEq, Repr

/-- The state *construct* leaves (R36); the model's own fields start at zero draws, an empty script, zero
ticks and `Ok`. -/
def State.constructed (cfg : Config) : State where
  v        := Vector.replicate 16 0#8
  i        := 0#16
  pc       := cfg.origin
  sp       := .empty
  stack    := Vector.replicate 16 0#16
  dt       := 0#8
  st       := 0#8
  mem      := []
  fb       := []
  dirty    := false
  keys     := Vector.replicate 16 false
  kblock   := .idle
  lastKey  := 0
  lastInsn := 0#16
  cfg      := cfg
  draws    := 0
  script   := []
  ticks    := 0
  result   := .ok

/-- The machine right after reset, with the default parameters (R9): *reset*() of the core as constructed.
By R168 it differs from the constructed core in `DIRTY` alone, which R37 gives the value `RESET_DIRTY`;
V, I and LASTINSN, which reset keeps, hold construct's 0 (log entry 1). -/
def State.reset : State :=
  { State.constructed Config.standard with dirty := Config.standard.resetDirty }

end Sys2Proof.Machine
end

