-- ==== Sys2Proof/Machine/Ops.lean ====
section
/-! DEFINITION. The named operations over the state: the accessors of every element of 10_state.md, the
memory array and its access primitives (20_memory.md R40, R41), the call stack (R22, R23), the parts of a
tick around the handler (40_tick_and_dispatch.md R71-R73), the Unknown-Opcode error (60_exceptions.md
R149, R158), and the free draws (R91, R104). -/

namespace Sys2Proof.Machine

/-! ### The cell array -/

/-- The value of cell `k`: the listed one, or 0 (R36, R38). -/
def Memory.read : Memory → Nat → Byte
  | [], _ => 0#8
  | (a, b) :: m, k => if a = k then b else Memory.read m k

/-- A list cell in front of `m`, left out when it holds what an unlisted cell reads as. -/
def Memory.cons (k : Nat) (v : Byte) (m : Memory) : Memory :=
  if v = 0#8 then m else (k, v) :: m

/-- Cell `k` set to `v`, keeping the canonical form. -/
def Memory.write : Memory → Nat → Byte → Memory
  | [], k, v => Memory.cons k v []
  | (a, b) :: m, k, v =>
    if k < a then Memory.cons k v ((a, b) :: m)
    else if k = a then Memory.cons k v m
    else (a, b) :: Memory.write m k v

/-- The cells of `m` stand at strictly rising addresses from `lo` up to below `size`, and none holds 0. -/
def Memory.wfFrom (size : Nat) : Nat → Memory → Bool
  | _, [] => true
  | lo, (a, b) :: m => decide (lo ≤ a) && decide (a < size) && (b != 0#8) && Memory.wfFrom size (a + 1) m

/-- The number of cells of `MEM` (R38). -/
def memSize : Nat := 4096

/-- The framebuffer's width `W` (R112). -/
def fbWidth : Nat := 64

/-- The framebuffer's height `H` (R112). -/
def fbHeight : Nat := 32

/-- The canonical form of `MEM` (R26, R38). -/
def Memory.wf (m : Memory) : Bool := Memory.wfFrom memSize 0 m

/-- The canonical form of `FB` (R27). -/
def Memory.fbWf (m : Memory) : Bool := Memory.wfFrom (fbWidth * fbHeight) 0 m

/-! ### Accessors -/

/-- `V[x]` (R12). -/
def State.getV (s : State) (x : Reg) : Byte := s.v[x.val]

/-- `V[x] <- b` (R12). -/
def State.setV (s : State) (x : Reg) (b : Byte) : State := { s with v := s.v.set x.val b }

/-- The number of `VF`, the register that doubles as the flag register (R18). -/
def regVF : Reg := 15

/-- `I <- w` (R12). -/
def State.setI (s : State) (w : Word) : State := { s with i := w }

/-- `pc <- target` (R12). -/
def State.setPc (s : State) (target : Word) : State := { s with pc := target }

/-- `DT <- b`. -/
def State.setDt (s : State) (b : Byte) : State := { s with dt := b }

/-- `ST <- b`. -/
def State.setSt (s : State) (b : Byte) : State := { s with st := b }

/-- `MEM <- m`. -/
def State.setMem (s : State) (m : Memory) : State := { s with mem := m }

/-- `FB[k]`. -/
def State.getFb (s : State) (k : Nat) : Byte := Memory.read s.fb k

/-- `FB[k] <- b`. -/
def State.setFb (s : State) (k : Nat) (b : Byte) : State := { s with fb := Memory.write s.fb k b }

/-- All cells of the framebuffer off (R114, R167). -/
def State.clearFb (s : State) : State := { s with fb := [] }

/-- `DIRTY <- d`. -/
def State.setDirty (s : State) (d : Bool) : State := { s with dirty := d }

/-- `KEYS[c]`. -/
def State.getKey (s : State) (c : KeyCode) : Bool := s.keys[c.val]

/-- `KEYS[c] <- pressed`. -/
def State.setKey (s : State) (c : KeyCode) (pressed : Bool) : State :=
  { s with keys := s.keys.set c.val pressed }

/-- `KBLOCK <- k`. -/
def State.setKblock (s : State) (k : KeyBlock) : State := { s with kblock := k }

/-- `LASTKEY <- c`. -/
def State.setLastKey (s : State) (c : KeyCode) : State := { s with lastKey := c }

/-- `STACK[j]`. -/
def State.getStack (s : State) (j : Fin 16) : Word := s.stack[j.val]

/-- `STACK[j] <- w`. -/
def State.setStack (s : State) (j : Fin 16) (w : Word) : State :=
  { s with stack := s.stack.set j.val w }

/-- `SP <- p`. -/
def State.setSp (s : State) (p : StackPointer) : State := { s with sp := p }

/-- One free byte has been taken (log entry 3). -/
def State.advanceDraws (s : State) : State := { s with draws := s.draws + 1 }

/-- What the tick returns to the host. -/
def State.setResult (s : State) (r : TickResult) : State := { s with result := r }

/-! ### Memory access primitives -/

/-- `MemRead(addr, 1)` (R40). -/
def State.readMem (s : State) (a : Nat) : Except Fault Byte :=
  if memSize ≤ a then .error (.memoryOutOfRange a) else .ok (Memory.read s.mem a)

/-- `MemWrite(addr, 1, v)` (R40). -/
def State.writeMem (s : State) (a : Nat) (v : Byte) : Except Fault State :=
  if memSize ≤ a then .error (.memoryOutOfRange a) else .ok (s.setMem (Memory.write s.mem a v))

/-- `Fetch16(a)`: two consecutive bytes, high byte first (R41, R42). -/
def State.fetch16 (s : State) (a : Nat) : Except Fault Word :=
  match s.readMem a with
  | .error f => .error f
  | .ok hi =>
    match s.readMem (a + 1) with
    | .error f => .error f
    | .ok lo => .ok (wordOfBytes hi lo)

/-- The outcome of a handler whose accesses may fault (R155). -/
def finish : Except Fault State → Host.Outcome State Fault Refusal
  | .ok s    => .next s
  | .error f => .fault f

/-! ### The call stack -/

/-- The integer in [-1, 15] that `SP` holds (R22). -/
def StackPointer.toInt : StackPointer → Int
  | .empty => -1
  | .top j => j.val

/-- `SP + 1`, absent when SP = 15 (R22, R83). -/
def StackPointer.push : StackPointer → Option (Fin 16)
  | .empty => some 0
  | .top j => if h : j.val + 1 < 16 then some ⟨j.val + 1, h⟩ else none

/-- `SP - 1` for a pointer at slot `j` (R81). -/
def StackPointer.below (j : Fin 16) : StackPointer :=
  if j.val = 0 then .empty else .top ⟨j.val - 1, Nat.lt_of_le_of_lt (Nat.sub_le _ _) j.isLt⟩

/-- `SP <- SP + 1; STACK[SP] <- w`, or the fault StackOverflow before anything is written (R83, R150). -/
def State.pushReturn (s : State) (w : Word) : Except Fault State :=
  match s.sp.push with
  | none   => .error .stackOverflow
  | some j => .ok ((s.setSp (.top j)).setStack j w)

/-- `pc <- STACK[SP]; SP <- SP - 1`, or the fault StackUnderflow before anything is written; the slot keeps
its value (R81, R151). -/
def State.popReturn (s : State) : Except Fault State :=
  match s.sp with
  | .empty => .error .stackUnderflow
  | .top j => .ok ((s.setPc (s.getStack j)).setSp (StackPointer.below j))

/-! ### The parts of a tick around the handler -/

/-- A timer's step: one less while non-zero, floor 0 (R71). -/
def countDown (b : Byte) : Byte := if b = 0#8 then 0#8 else b - 1#8

/-- The timer step of a tick (R71). -/
def State.stepTimers (s : State) : State :=
  (s.setDt (countDown s.dt)).setSt (countDown s.st)

/-- After a successful fetch of `op`: `LASTINSN <- op`, `PC <- trunc16(fetch_pc + 2)` (R72, R73). The tick
counts, and its result is `Ok` unless the handler says otherwise (R77). -/
def State.advance (s : State) (op : Word) : State :=
  { s with lastInsn := op, pc := s.pc + 2#16, ticks := s.ticks + 1, result := .ok }

/-- `pc <- trunc16(PC + 2)` when the test holds: a taken skip (R80). -/
def State.skipIf (s : State) (test : Bool) : State :=
  if test then s.setPc (s.pc + 2#16) else s

/-- `pc <- PC - 2`, the address the current instruction was fetched at (R124, D30). -/
def State.rewind (s : State) : State := s.setPc (s.pc - 2#16)

/-- The Unknown-Opcode error: the tick returns the raw word and the program counter at fetch time, and
nothing in the core changes beyond the tick's own steps (R78, R149, R158). A handler sees
`PC = fetch_pc + 2` (R74). -/
def State.raiseUnknownOpcode (s : State) (opcode : Word) : State :=
  s.setResult (.unknownOpcode opcode (s.pc - 2#16))

/-- A tolerated no-op changes nothing (R76). -/
def noOperation (s : State) : Host.Outcome State Fault Refusal := .next s

/-- `draw RNG`: the byte of the next draw, and the state after it (R12, R104). -/
def State.drawByte (s : State) : Byte × State := (Config.rngByte s.draws, s.advanceDraws)

end Sys2Proof.Machine
end

