-- ==== Sys2Proof/Machine/Operands.lean ====
section
/-! DEFINITION. Operand forms: zero-extended addresses (30_encoding.md R56), jump and index sums, memory
addresses `I + offset` (R11), the registers V0..Vx of a block transfer (R109), decimal digits (R108), the
glyph address (R107), a register as a key number (R119), sprite pixels and coordinates (R112, R113). -/

namespace Sys2Proof.Machine

/-- `zext_16(nnn)` (R56). -/
def zext16 (nnn : Addr12) : Word := nnn.setWidth 16

/-- `trunc16(zext_16(nnn) + V[0])`, the target of `Bnnn` (R84). -/
def offsetTarget (nnn : Addr12) (v0 : Byte) : Word := BitVec.ofNat 16 (nnn.toNat + v0.toNat)

/-- The address `I + offset`, an integer that does not wrap (R11, R38). -/
def State.indexed (s : State) (offset : Nat) : Nat := s.i.toNat + offset

/-- The registers V0, ..., Vx in order (R109, R110). -/
def regsThrough (x : Reg) : List Reg := (List.finRange 16).take (x.val + 1)

/-- `V[x] * 5`, the address of the glyph of digit Vx (R107). -/
def glyphAddress (b : Byte) : Word := BitVec.ofNat 16 (b.toNat * 5)

/-- The hundreds digit of a byte (R108). -/
def hundreds (b : Byte) : Byte := BitVec.ofNat 8 (b.toNat / 100)

/-- The tens digit of a byte (R108). -/
def tens (b : Byte) : Byte := BitVec.ofNat 8 (b.toNat / 10 % 10)

/-- The units digit of a byte (R108). -/
def units (b : Byte) : Byte := BitVec.ofNat 8 (b.toNat % 10)

/-- A register's value as a key number; 16 or more is the fault KeyIndexOutOfRange (R119, R153). -/
def keyNumber (b : Byte) : Except Fault KeyCode :=
  if h : b.toNat < 16 then .ok ⟨b.toNat, h⟩ else .error (.keyIndexOutOfRange b)

/-- The index of cell `(xpos, ypos)`: row-major, 64 cells a row (R27, R112). -/
def cellIndex (xpos ypos : Nat) : Nat := ypos * fbWidth + xpos

/-- `px(b, c)`: the value column `c` of sprite byte `b` XORs into its cell (R113). -/
def pixelValue (form : PixelXorForm) (b : Byte) (c : Nat) : Byte :=
  match form with
  | .masked     => b &&& (0x80#8 >>> c)
  | .normalized => (b >>> (7 - c)) &&& 0x01#8

end Sys2Proof.Machine
end

