-- ==== Sys2Proof/Machine/Flags.lean ====
section
/-! DEFINITION. The values written to VF, the flag register (10_state.md R18): carry (R96), the
"greater than" comparison (R92), the bits shifted out (R102, R103), the collision of a pixel (R116), and
the order of the flag's and the result's writes (R91). -/

namespace Sys2Proof.Machine

/-- A flag as the value 1 or 0. -/
def flagByte (p : Bool) : Byte := if p then 1#8 else 0#8

/-- VF after `8xy4`: 1 when the sum exceeds 255 (R96). -/
def carryFlag (a b : Byte) : Byte := flagByte (decide (a.toNat + b.toNat > 255))

/-- `gt(a, b)`, by the parameter `SUB_COMPARE` (R92). -/
def greater (cmp : SubCompare) (a b : Byte) : Bool :=
  match cmp with
  | .unsigned => decide (a.toNat > b.toNat)
  | .signed8  => decide (a.toInt > b.toInt)

/-- VF after `8xy6`: bit 0 of the operand (R102). -/
def shiftRightFlag (a : Byte) : Byte := a &&& 0x01#8

/-- VF after `8xyE`: bit 7 of the operand at its own weight, 0x00 or 0x80 (R103). -/
def shiftLeftFlag (a : Byte) : Byte := a &&& 0x80#8

/-- VF after a pixel that leaves `cell`: 1 when the cell is empty after the XOR (R116). -/
def collisionFlag (cell : Byte) : Byte := flagByte (cell == 0#8)

/-- `V[15] <- flag; V[x] <- result`, in that order (R91). With x = 0xF the result is the final VF under
`flag_then_result`; under `open` the final VF is a free draw (D3, C18; log entry 4). -/
def State.writeFlagged (s : State) (x : Reg) (flag result : Byte) : State :=
  match s.cfg.flagDest with
  | .flagThenResult => (s.setV regVF flag).setV x result
  | .openDraw =>
    if x = regVF then (s.setV regVF (Config.flagByte s.draws)).advanceDraws
    else (s.setV regVF flag).setV x result

end Sys2Proof.Machine
end

