-- ==== Sys2Proof/Machine/Alu.lean ====
section
/-! DEFINITION. Register loads, addition, subtraction, bitwise logic, shifts and the random byte
(spec/42_alu.md R90-R104). Operands are read before any write (R91). -/

namespace Sys2Proof.Machine

/-- `6xkk` LD Vx, kk (R93). -/
def execLdImm (x : Reg) (kk : Byte) (s : State) : Host.Outcome State Fault Refusal :=
  .next (s.setV x kk)

/-- `8xy0` LD Vx, Vy (R94). -/
def execLdReg (x y : Reg) (s : State) : Host.Outcome State Fault Refusal :=
  .next (s.setV x (s.getV y))

/-- `7xkk` ADD Vx, kk: wraps modulo 256, writes no flag (R95). -/
def execAddImm (x : Reg) (kk : Byte) (s : State) : Host.Outcome State Fault Refusal :=
  .next (s.setV x (s.getV x + kk))

/-- `8xy4` ADD Vx, Vy (R96). -/
def execAddReg (x y : Reg) (s : State) : Host.Outcome State Fault Refusal :=
  .next (s.writeFlagged x (carryFlag (s.getV x) (s.getV y)) (s.getV x + s.getV y))

/-- `8xy5` SUB Vx, Vy (R97). -/
def execSubReg (x y : Reg) (s : State) : Host.Outcome State Fault Refusal :=
  .next (s.writeFlagged x (flagByte (greater s.cfg.subCompare (s.getV x) (s.getV y)))
    (s.getV x - s.getV y))

/-- `8xy7` SUBN Vx, Vy (R98). -/
def execSubnReg (x y : Reg) (s : State) : Host.Outcome State Fault Refusal :=
  .next (s.writeFlagged x (flagByte (greater s.cfg.subCompare (s.getV y) (s.getV x)))
    (s.getV y - s.getV x))

/-- `8xy1` OR Vx, Vy (R99). -/
def execOrReg (x y : Reg) (s : State) : Host.Outcome State Fault Refusal :=
  .next (s.setV x (s.getV x ||| s.getV y))

/-- `8xy2` AND Vx, Vy (R100). -/
def execAndReg (x y : Reg) (s : State) : Host.Outcome State Fault Refusal :=
  .next (s.setV x (s.getV x &&& s.getV y))

/-- `8xy3` XOR Vx, Vy (R101). -/
def execXorReg (x y : Reg) (s : State) : Host.Outcome State Fault Refusal :=
  .next (s.setV x (s.getV x ^^^ s.getV y))

/-- `8xy6` SHR Vx: Vy is not read (R102). -/
def execShrReg (x _y : Reg) (s : State) : Host.Outcome State Fault Refusal :=
  .next (s.writeFlagged x (shiftRightFlag (s.getV x)) (s.getV x >>> 1))

/-- `8xyE` SHL Vx: Vy is not read; the flag is 0x00 or 0x80 (R103). -/
def execShlReg (x _y : Reg) (s : State) : Host.Outcome State Fault Refusal :=
  .next (s.writeFlagged x (shiftLeftFlag (s.getV x)) (s.getV x <<< 1))

/-- `Cxkk` RND Vx, kk: one free byte, masked (R104, D14). -/
def execRnd (x : Reg) (kk : Byte) (s : State) : Host.Outcome State Fault Refusal :=
  .next (s.drawByte.2.setV x (s.drawByte.1 &&& kk))

end Sys2Proof.Machine
end

