-- ==== Sys2Proof/Machine/ControlFlow.lean ====
section
/-! DEFINITION. Control transfer: return, jumps, call and the register skips (spec/41_control_flow.md
R80-R89). `PC` on entry is `fetch_pc + 2` (R74). -/

namespace Sys2Proof.Machine

/-- `00EE` RET (R81). -/
def execRet (s : State) : Host.Outcome State Fault Refusal := finish s.popReturn

/-- `1nnn` JP nnn (R82). -/
def execJp (nnn : Addr12) (s : State) : Host.Outcome State Fault Refusal :=
  .next (s.setPc (zext16 nnn))

/-- `2nnn` CALL nnn (R83): the return address is the advanced PC. -/
def execCall (nnn : Addr12) (s : State) : Host.Outcome State Fault Refusal :=
  match s.pushReturn s.pc with
  | .error f => .fault f
  | .ok s'   => .next (s'.setPc (zext16 nnn))

/-- `Bnnn` JP V0, nnn (R84). -/
def execJpV0 (nnn : Addr12) (s : State) : Host.Outcome State Fault Refusal :=
  .next (s.setPc (offsetTarget nnn (s.getV 0)))

/-- `3xkk` SE Vx, kk (R85). -/
def execSeImm (x : Reg) (kk : Byte) (s : State) : Host.Outcome State Fault Refusal :=
  .next (s.skipIf (s.getV x == kk))

/-- `4xkk` SNE Vx, kk (R86). -/
def execSneImm (x : Reg) (kk : Byte) (s : State) : Host.Outcome State Fault Refusal :=
  .next (s.skipIf (s.getV x != kk))

/-- `5xyn` SE Vx, Vy (R87). -/
def execSeReg (x y : Reg) (s : State) : Host.Outcome State Fault Refusal :=
  .next (s.skipIf (s.getV x == s.getV y))

/-- `9xyn` SNE Vx, Vy (R88). -/
def execSneReg (x y : Reg) (s : State) : Host.Outcome State Fault Refusal :=
  .next (s.skipIf (s.getV x != s.getV y))

end Sys2Proof.Machine
end

