-- ==== Sys2Proof/Machine/Display.lean ====
section
/-! DEFINITION. The framebuffer: clear and sprite draw (spec/44_display.md R112-R118). -/

namespace Sys2Proof.Machine

/-- `00E0` CLS (R114). -/
def execCls (s : State) : Host.Outcome State Fault Refusal := .next (s.clearFb.setDirty true)

/-- One pixel: XOR into the cell, then VF from the cell (R115, R116). -/
def State.drawPixel (s : State) (b : Byte) (c xpos ypos : Nat) : State :=
  let cell := s.getFb (cellIndex xpos ypos) ^^^ pixelValue s.cfg.pixelXor b c
  (s.setFb (cellIndex xpos ypos) cell).setV regVF (collisionFlag cell)

/-- The columns of one sprite row from column `c` on, `left` of them; a column at 64 or beyond ends the row
(R115, R117). -/
def State.drawColumns (s : State) (b : Byte) (x0 ypos : Nat) : (left c : Nat) → State
  | 0, _ => s
  | left + 1, c =>
    if fbWidth ≤ x0 + c then s
    else State.drawColumns (s.drawPixel b c (x0 + c) ypos) b x0 ypos left (c + 1)

/-- The sprite rows from row `r` on, `left` of them: the row's byte is read before its clip test; a row at
32 or beyond ends the draw (R115, R117). -/
def State.drawRows (s : State) (x0 y0 : Nat) : (left r : Nat) → Except Fault State
  | 0, _ => .ok s
  | left + 1, r =>
    match s.readMem (s.indexed r) with
    | .error f => .error f
    | .ok b =>
      if fbHeight ≤ y0 + r then .ok s
      else State.drawRows (s.drawColumns b x0 (y0 + r) 8 0) x0 y0 left (r + 1)

/-- `Dxyn` DRW Vx, Vy, n (R115): DIRTY first, coordinates read once. Under `FLAG_DEST_POLICY = open` a draw
with x or y = 0xF is refused (D3). -/
def execDrw (x y : Reg) (n : Nibble) (s : State) : Host.Outcome State Fault Refusal :=
  if s.cfg.flagDest = .openDraw ∧ (x = regVF ∨ y = regVF) then .refused .drawCoordinateInVF
  else finish ((s.setDirty true).drawRows (s.getV x).toNat (s.getV y).toNat n.toNat 0)

end Sys2Proof.Machine
end

