-- ==== Sys2Proof/Machine/IndexMemory.lean ====
section
/-! DEFINITION. The index register and the memory transfers (spec/43_index_and_memory.md R105-R111).
`I` is never changed by an access (R109, R110, D28). -/

namespace Sys2Proof.Machine

/-- `Annn` LD I, nnn (R105). -/
def execLdI (nnn : Addr12) (s : State) : Host.Outcome State Fault Refusal :=
  .next (s.setI (zext16 nnn))

/-- `Fx1E` ADD I, Vx: the fault IndexOverflow when the sum does not fit, no flag (R106, R154). -/
def execAddIVx (x : Reg) (s : State) : Host.Outcome State Fault Refusal :=
  if s.i.toNat + (s.getV x).toNat > 0xFFFF then .fault .indexOverflow
  else .next (s.setI (BitVec.ofNat 16 (s.i.toNat + (s.getV x).toNat)))

/-- `Fx29` LD F, Vx (R107). -/
def execLdFVx (x : Reg) (s : State) : Host.Outcome State Fault Refusal :=
  .next (s.setI (glyphAddress (s.getV x)))

/-- The bytes written at `a`, `a + 1`, ... in order; the first address out of range faults (R40, R44). -/
def State.storeBytes (s : State) (a : Nat) : List Byte → Except Fault State
  | [] => .ok s
  | b :: bs =>
    match s.writeMem a b with
    | .error f => .error f
    | .ok s'   => State.storeBytes s' (a + 1) bs

/-- `Fx33` LD B, Vx: hundreds, tens, units at I, I+1, I+2 (R108). -/
def execLdBVx (x : Reg) (s : State) : Host.Outcome State Fault Refusal :=
  finish (s.storeBytes (s.indexed 0) [hundreds (s.getV x), tens (s.getV x), units (s.getV x)])

/-- `MemWrite(I + i, 1, V[i])` for the listed registers in order (R109). -/
def State.storeEach (s : State) : List Reg → Except Fault State
  | [] => .ok s
  | r :: rs =>
    match s.writeMem (s.indexed r.val) (s.getV r) with
    | .error f => .error f
    | .ok s'   => State.storeEach s' rs

/-- `V[i] <- MemRead(I + i, 1)` for the listed registers in order (R110). -/
def State.loadEach (s : State) : List Reg → Except Fault State
  | [] => .ok s
  | r :: rs =>
    match s.readMem (s.indexed r.val) with
    | .error f => .error f
    | .ok b    => State.loadEach (s.setV r b) rs

/-- `Fx55` LD [I], Vx (R109). -/
def execStoreRegs (x : Reg) (s : State) : Host.Outcome State Fault Refusal :=
  finish (s.storeEach (regsThrough x))

/-- `Fx65` LD Vx, [I] (R110). -/
def execLoadRegs (x : Reg) (s : State) : Host.Outcome State Fault Refusal :=
  finish (s.loadEach (regsThrough x))

end Sys2Proof.Machine
end

