-- ==== Sys2Proof/Machine/KeypadTimers.lean ====
section
/-! DEFINITION. Key tests, timers and the blocking key read (spec/45_keypad_and_timers.md R119-R134). -/

namespace Sys2Proof.Machine

/-- `Ex9E` SKP Vx (R119). -/
def execSkp (x : Reg) (s : State) : Host.Outcome State Fault Refusal :=
  match keyNumber (s.getV x) with
  | .error f => .fault f
  | .ok k    => .next (s.skipIf (s.getKey k))

/-- `ExA1` SKNP Vx (R120). -/
def execSknp (x : Reg) (s : State) : Host.Outcome State Fault Refusal :=
  match keyNumber (s.getV x) with
  | .error f => .fault f
  | .ok k    => .next (s.skipIf (!s.getKey k))

/-- `Fx07` LD Vx, DT (R121). -/
def execLdVxDt (x : Reg) (s : State) : Host.Outcome State Fault Refusal :=
  .next (s.setV x s.dt)

/-- `Fx15` LD DT, Vx (R122). -/
def execLdDtVx (x : Reg) (s : State) : Host.Outcome State Fault Refusal :=
  .next (s.setDt (s.getV x))

/-- `Fx18` LD ST, Vx (R123). -/
def execLdStVx (x : Reg) (s : State) : Host.Outcome State Fault Refusal :=
  .next (s.setSt (s.getV x))

/-- `Fx0A` LD Vx, K: one step of the blocking-read state machine (R124-R128). -/
def execLdVxK (x : Reg) (s : State) : Host.Outcome State Fault Refusal :=
  match s.kblock with
  | .idle              => .next (s.rewind.setKblock .locked)
  | .locked            => .next s.rewind
  | .waitingForRelease =>
    if s.getKey s.lastKey then .next s.rewind else .next (s.rewind.setKblock .unlocked)
  | .unlocked          => .next ((s.setV x (BitVec.ofNat 8 s.lastKey.val)).setKblock .idle)

end Sys2Proof.Machine
end

