-- ==== Sys2Proof/Machine/NoOps.lean ====
section
/-! DEFINITION. The tolerated no-ops of groups 0x0 and 0x8 (spec/40_tick_and_dispatch.md R76) and the
Unknown-Opcode words of groups 0xE and 0xF (60_exceptions.md R149). -/

namespace Sys2Proof.Machine

/-- NOP0 (R59, R76). -/
def execNop0 (s : State) : Host.Outcome State Fault Refusal := noOperation s

/-- NOP8, `8xy8` (R60, R76). -/
def execNop8Fn8 (s : State) : Host.Outcome State Fault Refusal := noOperation s

/-- NOP8, `8xy9` (R60, R76). -/
def execNop8Fn9 (s : State) : Host.Outcome State Fault Refusal := noOperation s

/-- NOP8, `8xyA` (R60, R76). -/
def execNop8FnA (s : State) : Host.Outcome State Fault Refusal := noOperation s

/-- NOP8, `8xyB` (R60, R76). -/
def execNop8FnB (s : State) : Host.Outcome State Fault Refusal := noOperation s

/-- NOP8, `8xyC` (R60, R76). -/
def execNop8FnC (s : State) : Host.Outcome State Fault Refusal := noOperation s

/-- NOP8, `8xyD` (R60, R76). -/
def execNop8FnD (s : State) : Host.Outcome State Fault Refusal := noOperation s

/-- NOP8, `8xyF` (R60, R76). -/
def execNop8FnF (s : State) : Host.Outcome State Fault Refusal := noOperation s

/-- An unmapped group-E word: the tick returns Unknown-Opcode with the raw word (R61, R149). -/
def execUnknownE (x : Reg) (kk : Byte) (s : State) : Host.Outcome State Fault Refusal :=
  .next (s.raiseUnknownOpcode (packXK 0xE#4 x kk))

/-- An unmapped group-F word: the tick returns Unknown-Opcode with the raw word (R62, R149). -/
def execUnknownF (x : Reg) (kk : Byte) (s : State) : Host.Outcome State Fault Refusal :=
  .next (s.raiseUnknownOpcode (packXK 0xF#4 x kk))

end Sys2Proof.Machine
end

