-- ==== Sys2Proof/Machine/HostOps.lean ====
section
/-! DEFINITION. The host's transactions and queries (spec/46_host_operations.md R135-R147, the reset of
70_reset_and_hazards.md R167), and which pending transaction comes before the next tick (R172, R173; log
entry 8). *tick* is `Sys2Proof.Machine.tick` of Machine/Step.lean. -/

namespace Sys2Proof.Machine

/-- *construct*(origin) with the parameters of R9: refused for an origin above 0xFFE (R136, D21). -/
def hostConstruct (cfg : Config) : Host.Outcome State Fault Refusal :=
  if cfg.origin.toNat ≤ Config.maxOrigin then .next (State.constructed cfg) else .refused .originOutOfRange

/-- Bytes written at `a`, `a + 1`, ... of an array. -/
def Memory.writeAll (m : Memory) (a : Nat) : List Byte → Memory
  | []      => m
  | b :: bs => Memory.writeAll (Memory.write m a b) (a + 1) bs

/-- *load*(bytes): the image from ORIGIN on, refused when it does not fit; nothing else changes (R137, D19). -/
def hostLoad (bytes : List Byte) (s : State) : Host.Outcome State Fault Refusal :=
  if s.cfg.origin.toNat + bytes.length ≤ memSize then
    .next (s.setMem (Memory.writeAll s.mem s.cfg.origin.toNat bytes))
  else .refused .loadDoesNotFit

/-- *reset*(): V, I, LASTINSN and ORIGIN keep their values (R37, R167). -/
def hostReset (s : State) : State :=
  { s with
    fb      := []
    dirty   := s.cfg.resetDirty
    keys    := Vector.replicate 16 false
    kblock  := .idle
    lastKey := 0
    mem     := []
    pc      := s.cfg.origin
    sp      := .empty
    stack   := Vector.replicate 16 0#16
    dt      := 0#8
    st      := 0#8 }

/-- The effect of a key event on `KBLOCK` and `LASTKEY`: a press while Locked moves on and records the key;
under `every_press` any other press records it too (R129, R130, R140). -/
def State.noteKey (s : State) (c : KeyCode) (pressed : Bool) : State :=
  if pressed = true ∧ s.kblock = .locked then (s.setKblock .waitingForRelease).setLastKey c
  else if pressed = true ∧ s.cfg.lastKeyRecord = .everyPress then s.setLastKey c
  else s

/-- *key_set*(code, pressed): refused for a code above 0xF (R140, D20). -/
def hostKeySet (code : Nat) (pressed : Bool) (s : State) : Host.Outcome State Fault Refusal :=
  if h : code < 16 then .next ((s.setKey ⟨code, h⟩ pressed).noteKey ⟨code, h⟩ pressed)
  else .refused (.keyCodeOutOfRange code)

/-- *clear_dirty*() (R143). -/
def hostClearDirty (s : State) : State := s.setDirty false

/-- One host transaction (R135). -/
def performHostOp (op : HostOp) (s : State) : Host.Outcome State Fault Refusal :=
  match op with
  | .load bytes          => hostLoad bytes s
  | .reset               => .next (hostReset s)
  | .keySet code pressed => hostKeySet code pressed s
  | .clearDirty          => .next (hostClearDirty s)

/-! ### Queries: they change nothing (R141, R142, R144, R145) -/

/-- *is_key_pressed*(code) (R141, D20). -/
def isKeyPressed (s : State) (code : Nat) : Except Refusal Bool :=
  if h : code < 16 then .ok (s.getKey ⟨code, h⟩) else .error (.keyCodeOutOfRange code)

/-- *framebuffer*(): the 2048 cells in row-major order and DIRTY (R142). -/
def framebuffer (s : State) : List Byte × Bool :=
  ((List.range (fbWidth * fbHeight)).map s.getFb, s.dirty)

/-- *sound_on*(): ST > 0 (R144). -/
def soundOn (s : State) : Bool := decide (0 < s.st.toNat)

/-- *last_instruction*() (R145). -/
def lastInstruction (s : State) : Word := s.lastInsn

/-! ### Pending transactions -/

/-- The first transaction of a script that is due after `ticks` completed ticks, and the script without it.
A transaction whose number of ticks is not reached keeps no other waiting, whatever the order of the list, so
each is delivered at its tagged point (R172, R173). -/
def takeDue (ticks : Nat) : List (Nat × HostOp) → Option (HostOp × List (Nat × HostOp))
  | []        => none
  | p :: ops =>
    if p.1 ≤ ticks then some (p.2, ops)
    else (takeDue ticks ops).map fun q => (q.1, p :: q.2)

/-- The transaction that comes before the next tick, when one is due, and the script without it (R172,
R173). -/
def State.due (s : State) : Option (HostOp × List (Nat × HostOp)) := takeDue s.ticks s.script

/-- `s` with the given pending transactions. -/
def State.setScript (s : State) (ops : List (Nat × HostOp)) : State := { s with script := ops }

end Sys2Proof.Machine
end

