-- ==== Sys2Proof/Machine/Step.lean ====
section
/-! DEFINITION. One step: the next host transaction when one is due, else one *tick*
(spec/40_tick_and_dispatch.md R70; log entry 8), and the placing of a word for the next fetch. -/

namespace Sys2Proof.Machine

/-- *tick*(): decrement timers, fetch, advance PC by 2, dispatch (R70). -/
def tick (s : State) : Host.Outcome State Fault Refusal :=
  match s.stepTimers.fetch16 s.pc.toNat with
  | .error f => .fault f
  | .ok op   => exec (decodeWord s.cfg.group0Key op) (s.stepTimers.advance op)

/-- One atomic transaction: the host's pending one when it is due, else a tick (R1, R79, R135, R173). -/
def step (s : State) : Host.Outcome State Fault Refusal :=
  match s.due with
  | some (op, ops) => performHostOp op (s.setScript ops)
  | none           => tick s

/-- The transactions of a script that are not due. -/
def undelivered (ticks : Nat) (ops : List (Nat × HostOp)) : List (Nat × HostOp) :=
  ops.filter (fun p => decide (ticks < p.1))

/-- The state with the word `w` (numbered as spec/opcode_table.json numbers it) where the next tick
fetches: its bytes at PC and PC + 1, high byte first (R41). Host transactions that are already due are
taken out, so that the next step is that tick; a PC from which no word can be fetched is moved to the
conventional origin. This stands for the host's *load* (R137, R171; log entry 15). -/
def State.withFetchWord (s : State) (nbits w : Nat) : State :=
  let op : Word := BitVec.ofNat 16 (w % 2 ^ nbits)
  let pc : Word := if s.pc.toNat + 1 < memSize then s.pc else 0x200#16
  { s with
    pc     := pc
    script := undelivered s.ticks s.script
    mem    := Memory.write (Memory.write s.mem pc.toNat (hiByte op)) (pc.toNat + 1) (loByte op) }

end Sys2Proof.Machine
end

