-- ==== Sys2Proof/Machine/Launch.lean ====
section
/-! DEFINITION. Launches and the end of a run (spec/70_reset_and_hazards.md R171-R173). The end of a run
is the spec's convention for claims; the core itself never stops (R173, D38). -/

namespace Sys2Proof.Machine

/-- An event of a key script: after `ticks` completed ticks, key `code` goes down or up (R172). -/
structure KeyEvent where
  ticks   : Nat
  code    : KeyCode
  pressed : Bool
deriving DecidableEq, Repr

/-- The pending transaction a key event is (R140, R172). -/
def KeyEvent.pending (e : KeyEvent) : Nat × HostOp := (e.ticks, .keySet e.code.val e.pressed)

/-- The start of a launch: tick count 0, no result yet, the key script pending (R172). -/
def State.begin (s : State) (keys : List KeyEvent) : State :=
  { s with script := keys.map KeyEvent.pending, ticks := 0, result := .ok }

/-- `FreshLaunch`: *load*(image) applied to *construct*(origin) (R172). -/
def freshLaunch (cfg : Config) (image : List Byte) (keys : List KeyEvent) :
    Host.Outcome State Fault Refusal :=
  match hostConstruct cfg with
  | .next s    => hostLoad image (s.begin keys)
  | .fault f   => .fault f
  | .refused r => .refused r

/-- `ResetLaunch`: *load*(image) applied to *reset*() of a core in state `s` (R172). -/
def resetLaunch (s : State) (image : List Byte) (keys : List KeyEvent) :
    Host.Outcome State Fault Refusal :=
  hostLoad image ((hostReset s).begin keys)

/-- The self-jump word at an end address, `0x1000 | END` (R173). -/
def selfJump (endAddr : Addr12) : Word := packA 0x1#4 endAddr

/-- The word at `endAddr` is the self-jump (R173). -/
def State.selfJumpAt (s : State) (endAddr : Addr12) : Bool :=
  match s.fetch16 endAddr.toNat with
  | .ok op   => op == selfJump endAddr
  | .error _ => false

/-- The normal end of a run: `PC = END` and the word there is the self-jump (R173). -/
def State.atEnd (s : State) (endAddr : Addr12) : Bool :=
  s.pc == zext16 endAddr && s.selfJumpAt endAddr

/-- The end addresses a launch may name: at most 0xFFE, within the image, with the self-jump there in the
launch state `s` (R173; log entry 20). -/
def State.mayEndAt (s : State) (image : List Byte) (endAddr : Addr12) : Bool :=
  decide (endAddr.toNat ≤ 0xFFE) && decide (s.cfg.origin.toNat ≤ endAddr.toNat) &&
    decide (endAddr.toNat < s.cfg.origin.toNat + image.length) && s.selfJumpAt endAddr

/-- What is observed of a run (R173). -/
inductive RunOutcome where
  /-- Normal end: `Done(state)`. -/
  | done (s : State)
  /-- Error end: `Error(opcode, pc, state)`. -/
  | error (opcode pc : Word) (s : State)
  /-- A fault ended the run: no outcome is observed. -/
  | fault (f : Fault)
  /-- The launch is not admissible, or a host duty of the script was not met. -/
  | refused (r : Refusal)
  /-- Not ended within the given number of transactions. -/
  | running (s : State)
deriving DecidableEq, Repr

/-- The normal end is reached; a run without an end address has none (log entry 20). -/
def State.endReached (s : State) (endAddr : Option Addr12) : Bool :=
  match endAddr with
  | some e => s.atEnd e
  | none   => false

/-- A launch state run for at most `fuel` transactions, to the first of the ends of R173. -/
def runTo (endAddr : Option Addr12) : Nat → State → RunOutcome
  | fuel, s =>
    match s.result with
    | .unknownOpcode opcode pc => .error opcode pc s
    | .ok =>
      if s.endReached endAddr then .done s
      else
        match fuel with
        | 0 => .running s
        | fuel + 1 =>
          match step s with
          | .next s'   => runTo endAddr fuel s'
          | .fault f   => .fault f
          | .refused r => .refused r

/-- The end address a launch names is admissible for its image in its launch state; a launch that names none
runs to an error or a fault (R173; log entry 20). -/
def State.admitsEnd (s : State) (image : List Byte) (endAddr : Option Addr12) : Bool :=
  match endAddr with
  | some e => s.mayEndAt image e
  | none   => true

/-- A run of a launch (R173): `launched` is `freshLaunch` or `resetLaunch` of the image (R172); an end
address that is not admissible is refused. -/
def runLaunch (launched : Host.Outcome State Fault Refusal) (image : List Byte) (endAddr : Option Addr12)
    (fuel : Nat) : RunOutcome :=
  match launched with
  | .next s    => if s.admitsEnd image endAddr then runTo endAddr fuel s else .refused .endAddressInadmissible
  | .fault f   => .fault f
  | .refused r => .refused r

end Sys2Proof.Machine
end

