-- ==== Sys2Proof/Safety.lean ====
section
/-! DEFINITION. The terms claims are stated in: the pieces of the state and what it means to change only
some of them, which pieces an instruction may write (spec/10_state.md R17-R32), the invariant of every
state reachable without a fault (R21, R22, R26, R27), and the parts of the state no instruction reads
(R23, R25, R28, R32). -/

namespace Sys2Proof.Machine

/-- The pieces of the state, memory and framebuffer cell by cell. -/
inductive Piece where
  | v (r : Reg)
  | i
  | pc
  | sp
  | stack (slot : Fin 16)
  | dt
  | st
  | mem (addr : Nat)
  | fb (cell : Nat)
  | dirty
  | key (code : KeyCode)
  | kblock
  | lastKey
  | lastInsn
  | cfg
  | draws
  | script
  | ticks
  | result
deriving DecidableEq, Repr

/-- The piece holds the same value in both states; a memory cell is what reading it gives. -/
def Piece.same (s t : State) : Piece → Prop
  | .v r       => t.getV r = s.getV r
  | .i         => t.i = s.i
  | .pc        => t.pc = s.pc
  | .sp        => t.sp = s.sp
  | .stack j   => t.getStack j = s.getStack j
  | .dt        => t.dt = s.dt
  | .st        => t.st = s.st
  | .mem a     => Memory.read t.mem a = Memory.read s.mem a
  | .fb k      => t.getFb k = s.getFb k
  | .dirty     => t.dirty = s.dirty
  | .key c     => t.getKey c = s.getKey c
  | .kblock    => t.kblock = s.kblock
  | .lastKey   => t.lastKey = s.lastKey
  | .lastInsn  => t.lastInsn = s.lastInsn
  | .cfg       => t.cfg = s.cfg
  | .draws     => t.draws = s.draws
  | .script    => t.script = s.script
  | .ticks     => t.ticks = s.ticks
  | .result    => t.result = s.result

/-- From `s` to `t` only the pieces that `may` admits change; the frame of an operation. -/
def ChangesOnly (may : Piece → Prop) (s t : State) : Prop := ∀ p, ¬ may p → p.same s t

/-- The pieces an instruction may write when it executes in `s` (the index R17, and R18-R32): registers,
I, PC, the stack, the timers, memory, the framebuffer, DIRTY, KBLOCK; Unknown-Opcode writes the tick's
result. Whatever is not listed is in no instruction's effect. -/
def mayWrite (instr : Instr) (s : State) (p : Piece) : Bool :=
  match instr with
  | .cls => match p with
    | .fb _ | .dirty => true
    | _ => false
  | .ret => match p with
    | .pc | .sp => true
    | _ => false
  | .call _ => match p with
    | .pc | .sp => true
    | .stack j => s.sp.push == some j
    | _ => false
  | .jp _ | .jpV0 _ | .seImm _ _ | .sneImm _ _ | .seReg _ _ | .sneReg _ _ | .skp _ | .sknp _ => p == .pc
  | .ldImm x _ | .addImm x _ | .ldReg x _ | .orReg x _ | .andReg x _ | .xorReg x _ | .ldVxDt x =>
    p == .v x
  | .addReg x _ | .subReg x _ | .shrReg x _ | .subnReg x _ | .shlReg x _ => match p with
    | .v r => r == x || r == regVF
    | .draws => s.cfg.flagDest == .openDraw && x == regVF
    | _ => false
  | .rnd x _ => p == .v x || p == .draws
  | .ldI _ | .addIVx _ | .ldFVx _ => p == .i
  | .drw x y n => match p with
    | .v r => r == regVF
    | .fb k =>
      decide ((s.getV x).toNat ≤ k % fbWidth ∧ k % fbWidth < (s.getV x).toNat + 8 ∧
        (s.getV y).toNat ≤ k / fbWidth ∧ k / fbWidth < (s.getV y).toNat + n.toNat ∧
        k / fbWidth < fbHeight)
    | .dirty => true
    | _ => false
  | .ldVxK x => match p with
    | .v r => r == x && s.kblock == .unlocked
    | .pc => s.kblock != .unlocked
    | .kblock => true
    | _ => false
  | .ldDtVx _ => p == .dt
  | .ldStVx _ => p == .st
  | .ldBVx _ => match p with
    | .mem a => decide (s.indexed 0 ≤ a ∧ a ≤ s.indexed 2)
    | _ => false
  | .storeRegs x => match p with
    | .mem a => decide (s.indexed 0 ≤ a ∧ a ≤ s.indexed x.val)
    | _ => false
  | .loadRegs x => match p with
    | .v r => decide (r ≤ x)
    | _ => false
  | .unknownE _ _ | .unknownF _ _ => p == .result
  | .nop0 | .nop8Fn8 | .nop8Fn9 | .nop8FnA | .nop8FnB | .nop8FnC | .nop8FnD | .nop8FnF => false

/-- The invariant of the states reachable without a fault: an admissible ORIGIN (R9), PC at most 0x10FE
(R21), every stack slot a pushed PC, at most 0x1000 (R21), memory and framebuffer in canonical form (R26,
R27, R38). That SP stays in [-1, 15] (R22) holds by the type of `sp`. -/
abbrev Inv (s : State) : Prop :=
  s.cfg.origin.toNat ≤ Config.maxOrigin ∧ s.pc.toNat ≤ 0x10FE ∧
    (∀ j : Fin 16, (s.getStack j).toNat ≤ 0x1000) ∧ s.mem.wf = true ∧ s.fb.fbWf = true

/-- An outcome with its state replaced by what `f` keeps of it. -/
def viewOutcome (f : State → State) :
    Host.Outcome State Fault Refusal → Host.Outcome State Fault Refusal
  | .next s    => .next (f s)
  | .fault x   => .fault x
  | .refused r => .refused r

/-- What is left of a state without ST, DIRTY and LASTINSN, which no instruction reads (R25, R28, R32). -/
def State.withoutOutputs (s : State) : State :=
  { s with st := 0#8, dirty := false, lastInsn := 0#16 }

/-- Slot `j` holds a live return address: `STACK[0..SP]` (R22). -/
def StackPointer.live (p : StackPointer) (j : Fin 16) : Bool :=
  match p with
  | .empty => false
  | .top k => decide (j ≤ k)

/-- A state without the content of the slots above SP (R23, R34). -/
def State.withoutDeadSlots (s : State) : State :=
  { s with stack := Vector.ofFn fun j => if s.sp.live j then s.getStack j else 0#16 }

/-- The integer that `8xy5` and `8xy7` compare a byte as: its unsigned value, or under
`SUB_COMPARE = signed8` the value less 256 when bit 7 is set (R92). -/
def comparedValue (cmp : SubCompare) (b : Byte) : Int :=
  if cmp = .signed8 ∧ 0x80 ≤ b.toNat then (b.toNat : Int) - 256 else (b.toNat : Int)

/-- The word at PC, when it can be fetched (R41). -/
def State.nextWord (s : State) : Word :=
  wordOfBytes (Memory.read s.mem s.pc.toNat) (Memory.read s.mem (s.pc.toNat + 1))

/-- The instruction the next tick executes (R70, R75). -/
def State.nextInstr (s : State) : Instr := decodeWord s.cfg.group0Key s.nextWord

/-- The next step is a tick whose fetch succeeds: no host transaction is due and both bytes of the word
are in memory (R41, R70). -/
abbrev State.ticksNext (s : State) : Prop := s.due = none ∧ s.pc.toNat + 1 < memSize

end Sys2Proof.Machine
end

