-- ==== Sys2Proof/Certificates/Slice0/Obligations.lean ====
section
/-! DEFINITION. The statements for the provers, from the spec's numbered rules. `PC` in a statement about
`exec` is the advanced `fetch_pc + 2` a handler sees (R74). `ChangesOnly` is the frame: every other piece
of the state (register, stack slot, timer, memory byte, framebuffer cell, key, ...) is as before. A
statement over all states holds for every value of the parameters of R9, which the state carries. -/

open Sys2Proof Sys2Proof.Machine

/-! ### Encoding -/

/-- Words written out from the opcode map and the test vectors, one or more of each family (30_encoding.md
R64; 95_test_vectors.md T-1..T-6, CF-*, A-*, M-*, D-*, K-*). -/
def Obligations.OpcodeMapWordsDecode : Prop :=
  decodeWord .byte 0x00E0 = .cls ∧ decodeWord .byte 0x00EE = .ret ∧
  decodeWord .byte 0x0123 = .nop0 ∧ decodeWord .byte 0x1ABC = .jp 0xABC ∧
  decodeWord .byte 0x3233 = .seImm 2 0x33 ∧ decodeWord .byte 0x912F = .sneReg 1 2 ∧
  decodeWord .byte 0x8124 = .addReg 1 2 ∧ decodeWord .byte 0x810E = .shlReg 1 0 ∧
  decodeWord .byte 0x8128 = .nop8Fn8 ∧ decodeWord .byte 0xC30F = .rnd 3 0x0F ∧
  decodeWord .byte 0xD012 = .drw 0 1 2 ∧ decodeWord .byte 0xE19E = .skp 1 ∧
  decodeWord .byte 0xE19F = .unknownE 1 0x9F ∧ decodeWord .byte 0xF30A = .ldVxK 3 ∧
  decodeWord .byte 0xF533 = .ldBVx 5 ∧ decodeWord .byte 0xF255 = .storeRegs 2 ∧
  decodeWord .byte 0xF0FF = .unknownF 0 0xFF

/-- Decoding the word of a well-formed instruction gives the instruction, every operand included, under
every `GROUP0_KEY` (R54, R58-R64). -/
def Obligations.DecodeOfEncodeIsTheInstruction : Prop :=
  ∀ (key : Group0Key) (i : Instr), i.wellFormed = true → decodeWord key (encode i) = i

/-- Every one of the 65536 words decodes to a well-formed instruction of a row the word belongs to, with
the operands the word holds (R64, R65). -/
def Obligations.EveryWordDecodesToItsRow : Prop :=
  ∀ w : Word, (decodeWord .byte w).wellFormed = true ∧
    w &&& (opcodeRow (decodeWord .byte w)).mask = (opcodeRow (decodeWord .byte w)).pattern ∧
    encode (decodeWord .byte w) &&& (opcodeRow (decodeWord .byte w)).operands =
      w &&& (opcodeRow (decodeWord .byte w)).operands

/-- Group 0x0 under each `GROUP0_KEY` (R59; that the key is a parameter is the spec's decision D2). -/
def Obligations.GroupZeroSelectsByItsKey : Prop :=
  ∀ w : Word, w.toNat < 0x1000 →
    (decodeWord .byte w =
      if w.toNat % 256 = 0xE0 then .cls else if w.toNat % 256 = 0xEE then .ret else .nop0) ∧
    (decodeWord .nibble w =
      if w.toNat % 16 = 0x0 then .cls else if w.toNat % 16 = 0xE then .ret else .nop0) ∧
    (decodeWord .addr w =
      if w.toNat = 0x0E0 then .cls else if w.toNat = 0x0EE then .ret else .nop0)

/-- Group 0x8 selects by n; seven values of n are the tolerated no-op (R60). -/
def Obligations.GroupEightSelectsByNibble : Prop :=
  ∀ (key : Group0Key) (x y : Reg),
    [0x0#4, 0x1#4, 0x2#4, 0x3#4, 0x4#4, 0x5#4, 0x6#4, 0x7#4, 0x8#4, 0x9#4, 0xA#4, 0xB#4, 0xC#4, 0xD#4, 0xE#4,
      0xF#4].map (fun n => decodeWord key (packXYN 0x8#4 x y n)) =
    [.ldReg x y, .orReg x y, .andReg x y, .xorReg x y, .addReg x y, .subReg x y, .shrReg x y, .subnReg x y,
      .nop8Fn8, .nop8Fn9, .nop8FnA, .nop8FnB, .nop8FnC, .nop8FnD, .shlReg x y, .nop8FnF]

/-- Groups 0xE and 0xF select by kk; every other kk is an Unknown-Opcode word (R61, R62). -/
def Obligations.GroupsEAndFSelectByByte : Prop :=
  ∀ (key : Group0Key) (x : Reg) (kk : Byte),
    (decodeWord key (packXK 0xE#4 x kk) =
      if kk = 0x9E#8 then .skp x else if kk = 0xA1#8 then .sknp x else .unknownE x kk) ∧
    (kk = 0x07#8 → decodeWord key (packXK 0xF#4 x kk) = .ldVxDt x) ∧
    (kk = 0x0A#8 → decodeWord key (packXK 0xF#4 x kk) = .ldVxK x) ∧
    (kk = 0x15#8 → decodeWord key (packXK 0xF#4 x kk) = .ldDtVx x) ∧
    (kk = 0x18#8 → decodeWord key (packXK 0xF#4 x kk) = .ldStVx x) ∧
    (kk = 0x1E#8 → decodeWord key (packXK 0xF#4 x kk) = .addIVx x) ∧
    (kk = 0x29#8 → decodeWord key (packXK 0xF#4 x kk) = .ldFVx x) ∧
    (kk = 0x33#8 → decodeWord key (packXK 0xF#4 x kk) = .ldBVx x) ∧
    (kk = 0x55#8 → decodeWord key (packXK 0xF#4 x kk) = .storeRegs x) ∧
    (kk = 0x65#8 → decodeWord key (packXK 0xF#4 x kk) = .loadRegs x) ∧
    (kk ∉ [0x07#8, 0x0A#8, 0x15#8, 0x18#8, 0x1E#8, 0x29#8, 0x33#8, 0x55#8, 0x65#8] →
      decodeWord key (packXK 0xF#4 x kk) = .unknownF x kk)

/-! ### The tick -/

/-- A step with no host transaction due (log entry 8) runs the instruction the two bytes at PC decode to, on
the state after the timer step, the fetch and the advance by 2 (R70, R71, R73; LASTINSN before dispatch is the
spec's decision D15, an odd PC like any other its decision D23, log entry 16). `ticks` and `result` are the
model's bookkeeping (log entries 6 and 8). -/
def Obligations.StepRunsTheDecodedInstruction : Prop :=
  ∀ (s : State) (hi lo : Byte), s.due = none → s.pc.toNat + 1 < 4096 →
    Memory.read s.mem s.pc.toNat = hi → Memory.read s.mem (s.pc.toNat + 1) = lo →
    step s = exec (decodeWord s.cfg.group0Key (hi ++ lo))
      { s with
        dt := if s.dt = 0#8 then 0#8 else s.dt - 1#8
        st := if s.st = 0#8 then 0#8 else s.st - 1#8
        lastInsn := hi ++ lo
        pc := BitVec.ofNat 16 (s.pc.toNat + 2)
        ticks := s.ticks + 1
        result := .ok }

/-- A fetch at 0xFFF or above faults with the first address out of range, the spec's decision D10 (R41,
R152). -/
def Obligations.FetchBeyondMemoryFaults : Prop :=
  ∀ s : State, s.due = none → 0xFFF ≤ s.pc.toNat →
    step s = .fault (.memoryOutOfRange (if 4096 ≤ s.pc.toNat then s.pc.toNat else 4096))

/-- Every tick decrements each non-zero timer (unless its instruction then writes the timer), records
the fetched word, whatever the dispatch does (the spec's decision D15), and counts in the model's
`ticks` (log entry 8; R71, R72). -/
def Obligations.EveryTickStepsTimersAndRecordsWord : Prop :=
  ∀ s t : State, s.ticksNext → step s = .next t →
    t.lastInsn = s.nextWord ∧ t.ticks = s.ticks + 1 ∧
    ((∀ x, s.nextInstr ≠ .ldDtVx x) → t.dt.toNat = s.dt.toNat - 1) ∧
    ((∀ x, s.nextInstr ≠ .ldStVx x) → t.st.toNat = s.st.toNat - 1)

/-- The tolerated no-ops: the group-0 words that are neither CLS nor RET and `8xyn` for seven values of
n (R76). They complete and change nothing; at the tick, only its own steps show. That LASTINSN takes the
word is the spec's decision D15 (R72); the result `Ok` and the tick count stand in the model's own
fields (log entries 6 and 8). -/
def Obligations.ToleratedNoOpsChangeNothing : Prop :=
  (∀ (key : Group0Key) (w : Word), w.toNat < 0x1000 →
    decodeWord key w = .cls ∨ decodeWord key w = .ret ∨ decodeWord key w = .nop0) ∧
  (∀ (key : Group0Key) (x y : Reg),
    [0x8#4, 0x9#4, 0xA#4, 0xB#4, 0xC#4, 0xD#4, 0xF#4].map (fun n => decodeWord key (packXYN 0x8#4 x y n)) =
      [.nop8Fn8, .nop8Fn9, .nop8FnA, .nop8FnB, .nop8FnC, .nop8FnD, .nop8FnF]) ∧
  ∀ (i : Instr) (s : State),
    i ∈ [.nop0, .nop8Fn8, .nop8Fn9, .nop8FnA, .nop8FnB, .nop8FnC, .nop8FnD, .nop8FnF] →
    exec i s = .next s ∧
    (s.ticksNext → s.nextInstr = i → ∃ t, step s = .next t ∧
      t.pc = BitVec.ofNat 16 (s.pc.toNat + 2) ∧ t.lastInsn = s.nextWord ∧
      t.dt.toNat = s.dt.toNat - 1 ∧ t.st.toNat = s.st.toNat - 1 ∧ t.result = .ok ∧
      ChangesOnly (fun p => p = .pc ∨ p = .dt ∨ p = .st ∨ p = .lastInsn ∨ p = .ticks ∨ p = .result) s t)

/-- An Unknown-Opcode instruction completes by reporting the raw word and the fetch-time PC to the host,
in the model's field `result` (log entries 5 and 6; the outcome and its fields are the spec's decisions
D29 and D31); nothing else changes (R149, R158). It is said for every kk, also for the ill-formed terms
with a defined kk, which no decoded word is: that those report like any other is the model's choice (log
entry 17). -/
def Obligations.UnknownOpcodeReportsWordAndPc : Prop :=
  ∀ (x : Reg) (kk : Byte) (s : State),
    (∃ t, exec (.unknownE x kk) s = .next t ∧
      t.result = .unknownOpcode (packXK 0xE#4 x kk) (s.pc - 2#16) ∧ ChangesOnly (· = .result) s t) ∧
    (∃ t, exec (.unknownF x kk) s = .next t ∧
      t.result = .unknownOpcode (packXK 0xF#4 x kk) (s.pc - 2#16) ∧ ChangesOnly (· = .result) s t)

/-- A tick that fetches an unmapped word of group 0xE or 0xF returns `Err(UnknownOpcode{opcode, pc})`
with the raw word and the PC before the advance; the timer step, LASTINSN and the advance have taken
effect and nothing else has changed, and the core goes on (the spec's decisions D13, D29, D31; log entry
5; R78, R149). -/
def Obligations.UnknownOpcodeTickLeavesTheDefinedState : Prop :=
  ∀ s : State, s.ticksNext →
    ((0xE000 ≤ s.nextWord.toNat ∧ s.nextWord.toNat < 0xF000 ∧
        s.nextWord.toNat % 256 ∉ [0x9E, 0xA1]) ∨
      (0xF000 ≤ s.nextWord.toNat ∧
        s.nextWord.toNat % 256 ∉ [0x07, 0x0A, 0x15, 0x18, 0x1E, 0x29, 0x33, 0x55, 0x65])) →
    ∃ t, step s = .next t ∧ t.result = .unknownOpcode s.nextWord s.pc ∧
      t.lastInsn = s.nextWord ∧ t.pc = BitVec.ofNat 16 (s.pc.toNat + 2) ∧
      t.dt.toNat = s.dt.toNat - 1 ∧ t.st.toNat = s.st.toNat - 1 ∧
      ChangesOnly (fun p => p = .pc ∨ p = .dt ∨ p = .st ∨ p = .lastInsn ∨ p = .ticks ∨ p = .result) s t

/-! ### Control transfer -/

/-- `1nnn` and `Bnnn` (R82, R84). -/
def Obligations.JumpsReplaceThePc : Prop :=
  ∀ (nnn : Addr12) (s : State),
    (∀ key, decodeWord key (packA 0x1#4 nnn) = .jp nnn ∧ decodeWord key (packA 0xB#4 nnn) = .jpV0 nnn) ∧
    (∃ t, exec (.jp nnn) s = .next t ∧ t.pc.toNat = nnn.toNat ∧ ChangesOnly (· = .pc) s t) ∧
    (∃ t, exec (.jpV0 nnn) s = .next t ∧ t.pc.toNat = nnn.toNat + (s.getV 0).toNat ∧
      ChangesOnly (· = .pc) s t)

/-- `2nnn`: the advanced PC goes to the slot above SP (R83); with SP = 15 the fault StackOverflow, the
spec's decision D8 (R150). -/
def Obligations.CallPushesTheReturnAddress : Prop :=
  ∀ (nnn : Addr12) (s : State),
    (∀ key, decodeWord key (packA 0x2#4 nnn) = .call nnn) ∧
    (s.sp.toInt = 15 → exec (.call nnn) s = .fault .stackOverflow) ∧
    (s.sp.toInt ≠ 15 → ∃ t j, exec (.call nnn) s = .next t ∧ t.sp = .top j ∧
      t.sp.toInt = s.sp.toInt + 1 ∧ t.getStack j = s.pc ∧ t.pc.toNat = nnn.toNat ∧
      ChangesOnly (fun p => p = .pc ∨ p = .sp ∨ p = .stack j) s t)

/-- `00EE`: PC from the slot SP names, SP one less, the slot kept (R81); with SP = -1 the fault
StackUnderflow, the spec's decision D9 (R151). -/
def Obligations.ReturnPopsTheReturnAddress : Prop :=
  ∀ s : State,
    (∀ key, decodeWord key 0x00EE#16 = .ret) ∧
    (s.sp.toInt = -1 → exec .ret s = .fault .stackUnderflow) ∧
    (∀ j : Fin 16, s.sp = .top j → ∃ t, exec .ret s = .next t ∧ t.pc = s.getStack j ∧
      t.sp.toInt = s.sp.toInt - 1 ∧ ChangesOnly (fun p => p = .pc ∨ p = .sp) s t)

/-- A `2nnn` at A and a `00EE` with no other stack operation between leave PC = A + 2 and SP as before
the call (the spec derives it: R89, from R74, R81 and R83). -/
def Obligations.ReturnComesBackAfterTheCall : Prop :=
  ∀ (nnn : Addr12) (s t u : State), s.ticksNext → s.nextInstr = .call nnn → step s = .next t →
    u.ticksNext → u.nextInstr = .ret → u.sp = t.sp → (∀ j, u.getStack j = t.getStack j) →
    ∃ w, step u = .next w ∧ w.pc = BitVec.ofNat 16 (s.pc.toNat + 2) ∧ w.sp = s.sp

/-- `3xkk`, `4xkk`, `5xyn`, `9xyn`: PC + 2 when the test holds, and n is not inspected (R85-R88, R63). -/
def Obligations.SkipsAddTwoWhenTheTestHolds : Prop :=
  ∀ (x y : Reg) (n : Nibble) (kk : Byte) (s : State),
    (∀ key, decodeWord key (packXK 0x3#4 x kk) = .seImm x kk ∧
      decodeWord key (packXK 0x4#4 x kk) = .sneImm x kk ∧
      decodeWord key (packXYN 0x5#4 x y n) = .seReg x y ∧
      decodeWord key (packXYN 0x9#4 x y n) = .sneReg x y) ∧
    (∃ t, exec (.seImm x kk) s = .next t ∧
      t.pc = (if s.getV x = kk then BitVec.ofNat 16 (s.pc.toNat + 2) else s.pc) ∧
      ChangesOnly (· = .pc) s t) ∧
    (∃ t, exec (.sneImm x kk) s = .next t ∧
      t.pc = (if s.getV x ≠ kk then BitVec.ofNat 16 (s.pc.toNat + 2) else s.pc) ∧
      ChangesOnly (· = .pc) s t) ∧
    (∃ t, exec (.seReg x y) s = .next t ∧
      t.pc = (if s.getV x = s.getV y then BitVec.ofNat 16 (s.pc.toNat + 2) else s.pc) ∧
      ChangesOnly (· = .pc) s t) ∧
    (∃ t, exec (.sneReg x y) s = .next t ∧
      t.pc = (if s.getV x ≠ s.getV y then BitVec.ofNat 16 (s.pc.toNat + 2) else s.pc) ∧
      ChangesOnly (· = .pc) s t)

/-! ### Register arithmetic, logic, shifts, random -/

/-- `6xkk` and `8xy0` (R93, R94). -/
def Obligations.LoadsWriteOneRegister : Prop :=
  ∀ (x y : Reg) (kk : Byte) (s : State),
    (∀ key, decodeWord key (packXK 0x6#4 x kk) = .ldImm x kk ∧
      decodeWord key (packXYN 0x8#4 x y 0x0#4) = .ldReg x y) ∧
    (∃ t, exec (.ldImm x kk) s = .next t ∧ t.getV x = kk ∧ ChangesOnly (· = .v x) s t) ∧
    (∃ t, exec (.ldReg x y) s = .next t ∧ t.getV x = s.getV y ∧ ChangesOnly (· = .v x) s t)

/-- `7xkk`: the sum modulo 256, no flag (R95). -/
def Obligations.AddImmediateWrapsWithoutFlag : Prop :=
  ∀ (x : Reg) (kk : Byte) (s : State),
    (∀ key, decodeWord key (packXK 0x7#4 x kk) = .addImm x kk) ∧
    ∃ t, exec (.addImm x kk) s = .next t ∧
      (t.getV x).toNat = ((s.getV x).toNat + kk.toNat) % 256 ∧ ChangesOnly (· = .v x) s t

/-- `8xy4`: the carry to VF, then the low byte of the sum to Vx, so that with x = 0xF the sum is the final
VF (R96; x = 0xF under `FLAG_DEST_POLICY = open` is `OpenPolicyLeavesVfFree`). -/
def Obligations.AddRegistersSetsCarryThenSum : Prop :=
  ∀ (x y : Reg) (s : State),
    (∀ key, decodeWord key (packXYN 0x8#4 x y 0x4#4) = .addReg x y) ∧
    ∃ t, exec (.addReg x y) s = .next t ∧
      (¬ (s.cfg.flagDest = .openDraw ∧ x = 15) →
        (t.getV x).toNat = ((s.getV x).toNat + (s.getV y).toNat) % 256 ∧ t.draws = s.draws) ∧
      (x ≠ 15 → t.getV 15 = if (s.getV x).toNat + (s.getV y).toNat > 255 then 1#8 else 0#8) ∧
      ChangesOnly (fun p => p = .v x ∨ p = .v 15 ∨ p = .draws) s t

/-- `8xy5` and `8xy7` (R97, R98): VF by the strict comparison, then the difference modulo 256. The
comparison, unsigned or signed8 as `SUB_COMPARE` names, is R92's, the spec's decision D4; x = 0xF under
`FLAG_DEST_POLICY = open` is `OpenPolicyLeavesVfFree`. -/
def Obligations.SubtractionsSetGreaterThenDifference : Prop :=
  ∀ (x y : Reg) (s : State),
    (∀ key, decodeWord key (packXYN 0x8#4 x y 0x5#4) = .subReg x y ∧
      decodeWord key (packXYN 0x8#4 x y 0x7#4) = .subnReg x y) ∧
    (∃ t, exec (.subReg x y) s = .next t ∧
      (¬ (s.cfg.flagDest = .openDraw ∧ x = 15) →
        ((t.getV x).toNat : Int) = ((s.getV x).toNat - (s.getV y).toNat : Int) % 256 ∧
        t.draws = s.draws) ∧
      (x ≠ 15 → t.getV 15 =
        if comparedValue s.cfg.subCompare (s.getV x) > comparedValue s.cfg.subCompare (s.getV y) then 1#8
        else 0#8) ∧
      ChangesOnly (fun p => p = .v x ∨ p = .v 15 ∨ p = .draws) s t) ∧
    (∃ t, exec (.subnReg x y) s = .next t ∧
      (¬ (s.cfg.flagDest = .openDraw ∧ x = 15) →
        ((t.getV x).toNat : Int) = ((s.getV y).toNat - (s.getV x).toNat : Int) % 256 ∧
        t.draws = s.draws) ∧
      (x ≠ 15 → t.getV 15 =
        if comparedValue s.cfg.subCompare (s.getV y) > comparedValue s.cfg.subCompare (s.getV x) then 1#8
        else 0#8) ∧
      ChangesOnly (fun p => p = .v x ∨ p = .v 15 ∨ p = .draws) s t)

/-- `8xy1`, `8xy2`, `8xy3`: bitwise, no flag (R99-R101). -/
def Obligations.LogicWritesOneRegister : Prop :=
  ∀ (x y : Reg) (s : State),
    (∀ key, decodeWord key (packXYN 0x8#4 x y 0x1#4) = .orReg x y ∧
      decodeWord key (packXYN 0x8#4 x y 0x2#4) = .andReg x y ∧
      decodeWord key (packXYN 0x8#4 x y 0x3#4) = .xorReg x y) ∧
    (∃ t, exec (.orReg x y) s = .next t ∧
      (∀ k, (t.getV x).getLsbD k = ((s.getV x).getLsbD k || (s.getV y).getLsbD k)) ∧
      ChangesOnly (· = .v x) s t) ∧
    (∃ t, exec (.andReg x y) s = .next t ∧
      (∀ k, (t.getV x).getLsbD k = ((s.getV x).getLsbD k && (s.getV y).getLsbD k)) ∧
      ChangesOnly (· = .v x) s t) ∧
    (∃ t, exec (.xorReg x y) s = .next t ∧
      (∀ k, (t.getV x).getLsbD k = ((s.getV x).getLsbD k ^^ (s.getV y).getLsbD k)) ∧
      ChangesOnly (· = .v x) s t)

/-- `8xy6` and `8xyE`: one bit, Vy not read; VF is bit 0 as 0 or 1, or bit 7 as 0x00 or 0x80, then the
result to Vx (R102, R103; x = 0xF under `FLAG_DEST_POLICY = open` is `OpenPolicyLeavesVfFree`). -/
def Obligations.ShiftsSetTheBitShiftedOut : Prop :=
  ∀ (x y : Reg) (s : State),
    (∀ key, decodeWord key (packXYN 0x8#4 x y 0x6#4) = .shrReg x y ∧
      decodeWord key (packXYN 0x8#4 x y 0xE#4) = .shlReg x y) ∧
    (∃ t, exec (.shrReg x y) s = .next t ∧
      (¬ (s.cfg.flagDest = .openDraw ∧ x = 15) →
        (t.getV x).toNat = (s.getV x).toNat / 2 ∧ t.draws = s.draws) ∧
      (x ≠ 15 → (t.getV 15).toNat = (s.getV x).toNat % 2) ∧
      ChangesOnly (fun p => p = .v x ∨ p = .v 15 ∨ p = .draws) s t) ∧
    (∃ t, exec (.shlReg x y) s = .next t ∧
      (¬ (s.cfg.flagDest = .openDraw ∧ x = 15) →
        (t.getV x).toNat = (s.getV x).toNat * 2 % 256 ∧ t.draws = s.draws) ∧
      (x ≠ 15 → t.getV 15 = if 0x80 ≤ (s.getV x).toNat then 0x80#8 else 0x00#8) ∧
      ChangesOnly (fun p => p = .v x ∨ p = .v 15 ∨ p = .draws) s t)

/-- The spec's decision D3 (log entry 4): under `FLAG_DEST_POLICY = open` a flag-setting operation with
x = 0xF completes and leaves in VF one free byte, whatever it is. -/
def Obligations.OpenPolicyLeavesVfFree : Prop :=
  ∀ (i : Instr) (y : Reg) (s : State), s.cfg.flagDest = .openDraw →
    i ∈ [.addReg 15 y, .subReg 15 y, .subnReg 15 y, .shrReg 15 y, .shlReg 15 y] →
    ∃ t, exec i s = .next t ∧ t.getV 15 = Config.flagByte s.draws ∧ t.draws = s.draws + 1 ∧
      ChangesOnly (fun p => p = .v 15 ∨ p = .draws) s t

/-- `Cxkk`: one free byte, whatever it is (the spec's decision D14; log entry 3), masked by kk (R104). -/
def Obligations.RandomByteIsMasked : Prop :=
  ∀ (x : Reg) (kk : Byte) (s : State),
    (∀ key, decodeWord key (packXK 0xC#4 x kk) = .rnd x kk) ∧
    ∃ t, exec (.rnd x kk) s = .next t ∧
      (∀ k, (t.getV x).getLsbD k = ((Config.rngByte s.draws).getLsbD k && kk.getLsbD k)) ∧
      t.draws = s.draws + 1 ∧ ChangesOnly (fun p => p = .v x ∨ p = .draws) s t

/-! ### Index register and memory -/

/-- `Annn` (R105) and `Fx29` (R107): `I <- V[x] * 5` for every Vx, whatever stands there in memory,
since the core places no glyph data (the spec's decision D24). -/
def Obligations.IndexLoadsSetI : Prop :=
  ∀ (nnn : Addr12) (x : Reg) (s : State),
    (∀ key, decodeWord key (packA 0xA#4 nnn) = .ldI nnn ∧
      decodeWord key (packXK 0xF#4 x 0x29#8) = .ldFVx x) ∧
    (∃ t, exec (.ldI nnn) s = .next t ∧ t.i.toNat = nnn.toNat ∧ ChangesOnly (· = .i) s t) ∧
    (∃ t, exec (.ldFVx x) s = .next t ∧ t.i.toNat = (s.getV x).toNat * 5 ∧ ChangesOnly (· = .i) s t)

/-- `Fx1E`: the sum to I, no flag (R106); a sum above 0xFFFF is the fault IndexOverflow, the spec's
decision D12 (R154). -/
def Obligations.AddToIndexKeepsTheWholeSum : Prop :=
  ∀ (x : Reg) (s : State),
    (∀ key, decodeWord key (packXK 0xF#4 x 0x1E#8) = .addIVx x) ∧
    (s.i.toNat + (s.getV x).toNat ≤ 0xFFFF → ∃ t, exec (.addIVx x) s = .next t ∧
      t.i.toNat = s.i.toNat + (s.getV x).toNat ∧ ChangesOnly (· = .i) s t) ∧
    (0xFFFF < s.i.toNat + (s.getV x).toNat → exec (.addIVx x) s = .fault .indexOverflow)

/-- `Fx33`: hundreds, tens and units of Vx at I, I+1, I+2 (R108); the fault MemoryOutOfRange when I + 2
is out of memory, the spec's decision D10 (R152). -/
def Obligations.DecimalDigitsAreStored : Prop :=
  ∀ (x : Reg) (s : State), s.mem.wf = true →
    (∀ key, decodeWord key (packXK 0xF#4 x 0x33#8) = .ldBVx x) ∧
    (s.indexed 2 < 4096 → ∃ t, exec (.ldBVx x) s = .next t ∧
      (Memory.read t.mem (s.indexed 0)).toNat = (s.getV x).toNat / 100 ∧
      (Memory.read t.mem (s.indexed 1)).toNat = (s.getV x).toNat / 10 % 10 ∧
      (Memory.read t.mem (s.indexed 2)).toNat = (s.getV x).toNat % 10 ∧
      ChangesOnly (fun p => p = .mem (s.indexed 0) ∨ p = .mem (s.indexed 1) ∨ p = .mem (s.indexed 2)) s t) ∧
    (4096 ≤ s.indexed 2 → exec (.ldBVx x) s = .fault (.memoryOutOfRange (max (s.indexed 0) 4096)))

/-- `Fx55`: V0..Vx to memory from I on (R109), I unchanged, the spec's decision D28; the fault
MemoryOutOfRange when I + x is out of memory, its decision D10 (R152). -/
def Obligations.RegistersAreStored : Prop :=
  ∀ (x : Reg) (s : State), s.mem.wf = true →
    (∀ key, decodeWord key (packXK 0xF#4 x 0x55#8) = .storeRegs x) ∧
    (s.indexed x.val < 4096 → ∃ t, exec (.storeRegs x) s = .next t ∧
      (∀ r : Reg, r ≤ x → Memory.read t.mem (s.indexed r.val) = s.getV r) ∧
      ChangesOnly (fun p => ∃ r : Reg, r ≤ x ∧ p = .mem (s.indexed r.val)) s t) ∧
    (4096 ≤ s.indexed x.val →
      exec (.storeRegs x) s = .fault (.memoryOutOfRange (max (s.indexed 0) 4096)))

/-- `Fx65`: memory from I on to V0..Vx, the registers above x unchanged (R110), I unchanged, the spec's
decision D28; the fault MemoryOutOfRange when I + x is out of memory, its decision D10 (R152). -/
def Obligations.RegistersAreLoaded : Prop :=
  ∀ (x : Reg) (s : State),
    (∀ key, decodeWord key (packXK 0xF#4 x 0x65#8) = .loadRegs x) ∧
    (s.indexed x.val < 4096 → ∃ t, exec (.loadRegs x) s = .next t ∧
      (∀ r : Reg, r ≤ x → t.getV r = Memory.read s.mem (s.indexed r.val)) ∧
      ChangesOnly (fun p => ∃ r : Reg, r ≤ x ∧ p = .v r) s t) ∧
    (4096 ≤ s.indexed x.val →
      exec (.loadRegs x) s = .fault (.memoryOutOfRange (max (s.indexed 0) 4096)))

/-- `Fx55` then `Fx65` with the same x and I, with no write to the stored bytes between, restores V0..Vx
and leaves the other registers alone (the spec derives it: R111, from R109 and R110). -/
def Obligations.LoadRestoresWhatWasStored : Prop :=
  ∀ (x : Reg) (s t u : State), s.mem.wf = true → exec (.storeRegs x) s = .next t → u.i = s.i →
    (∀ r : Reg, r ≤ x → Memory.read u.mem (s.indexed r.val) = Memory.read t.mem (s.indexed r.val)) →
    ∃ w, exec (.loadRegs x) u = .next w ∧ (∀ r : Reg, r ≤ x → w.getV r = s.getV r) ∧
      (∀ r : Reg, x < r → w.getV r = u.getV r)

/-! ### Display -/

/-- `00E0`: all 2048 cells off and DIRTY set (R114). -/
def Obligations.ClearTurnsEveryCellOff : Prop :=
  ∀ s : State,
    (∀ key, decodeWord key 0x00E0#16 = .cls) ∧
    ∃ t, exec .cls s = .next t ∧ (∀ k, t.getFb k = 0#8) ∧ t.dirty = true ∧
      ChangesOnly (fun p => p = .dirty ∨ ∃ k, p = .fb k) s t

/-- `Dxyn` when the rows it reads are in memory: DIRTY is set, and each cell of the screen is XORed with
the pixel of the sprite bit over it, bit 7-c of row r's byte at (Vx + c, Vy + r), at its own weight
under `masked` and as 1 under `normalized`; nothing wraps around (R112, R113, R115, R117, R118; the
pixel form is the spec's decision D5, the single reading and the width of the coordinates its decision
D6). -/
def Obligations.DrawXorsEachCellOnce : Prop :=
  ∀ (x y : Reg) (n : Nibble) (s : State), s.fb.fbWf = true →
    ¬ (s.cfg.flagDest = .openDraw ∧ (x = 15 ∨ y = 15)) →
    (∀ r, r < n.toNat → (r = 0 ∨ (s.getV y).toNat + (r - 1) < 32) → s.indexed r < 4096) →
    ∃ t, exec (.drw x y n) s = .next t ∧ t.dirty = true ∧
      (∀ xp yp, xp < 64 → yp < 32 →
        t.getFb (yp * 64 + xp) = s.getFb (yp * 64 + xp) ^^^
          (if (s.getV x).toNat ≤ xp ∧ xp < (s.getV x).toNat + 8 ∧
              (s.getV y).toNat ≤ yp ∧ yp < (s.getV y).toNat + n.toNat ∧
              (Memory.read s.mem (s.indexed (yp - (s.getV y).toNat))).getLsbD
                (7 - (xp - (s.getV x).toNat)) = true then
            if s.cfg.pixelXor = .masked then BitVec.twoPow 8 (7 - (xp - (s.getV x).toNat)) else 1#8
          else 0#8)) ∧
      ChangesOnly (fun p => p = .dirty ∨ p = .v 15 ∨ ∃ k, k < 2048 ∧ p = .fb k) s t

/-- `Dxyn`: VF after the draw is that of the last pixel touched, the bottom right one inside the screen:
1 if its cell is empty after the XOR, else 0; with no pixel touched VF is unchanged (R115, R116; the
coordinates are the spec's decision D6). -/
def Obligations.DrawLeavesTheLastPixelsFlag : Prop :=
  ∀ (x y : Reg) (n : Nibble) (s : State), s.fb.fbWf = true →
    ¬ (s.cfg.flagDest = .openDraw ∧ (x = 15 ∨ y = 15)) →
    (∀ r, r < n.toNat → (r = 0 ∨ (s.getV y).toNat + (r - 1) < 32) → s.indexed r < 4096) →
    ∃ t, exec (.drw x y n) s = .next t ∧
      (0 < n.toNat ∧ (s.getV x).toNat < 64 ∧ (s.getV y).toNat < 32 →
        t.getV 15 = if t.getFb ((min ((s.getV y).toNat + n.toNat) 32 - 1) * 64 +
          (min ((s.getV x).toNat + 8) 64 - 1)) = 0#8 then 1#8 else 0#8) ∧
      (¬ (0 < n.toNat ∧ (s.getV x).toNat < 64 ∧ (s.getV y).toNat < 32) → t.getV 15 = s.getV 15)

/-- `Dxyn` that starts off the screen, or has no rows, changes DIRTY alone (R118; the spec derives the
start-coordinate case: R117). -/
def Obligations.DrawOffTheScreenSetsDirtyAlone : Prop :=
  ∀ (x y : Reg) (n : Nibble) (s : State), s.fb.fbWf = true →
    ¬ (s.cfg.flagDest = .openDraw ∧ (x = 15 ∨ y = 15)) →
    (∀ r, r < n.toNat → (r = 0 ∨ (s.getV y).toNat + (r - 1) < 32) → s.indexed r < 4096) →
    n = 0#4 ∨ 64 ≤ (s.getV x).toNat ∨ 32 ≤ (s.getV y).toNat →
    ∃ t, exec (.drw x y n) s = .next t ∧ t.dirty = true ∧ ChangesOnly (· = .dirty) s t

/-- `Dxyn` stops where the spec says: a row read at 4096 or above is the fault MemoryOutOfRange with the
first address out of range, the spec's decision D10; under `FLAG_DEST_POLICY = open` a draw with x or y
= 0xF is refused, its decision D3 (R115, R152). -/
def Obligations.DrawStopsOutOfMemoryOrOnOpenFlag : Prop :=
  ∀ (x y : Reg) (n : Nibble) (s : State),
    (s.cfg.flagDest = .openDraw ∧ (x = 15 ∨ y = 15) →
      exec (.drw x y n) s = .refused .drawCoordinateInVF) ∧
    (¬ (s.cfg.flagDest = .openDraw ∧ (x = 15 ∨ y = 15)) →
      (∃ r, r < n.toNat ∧ (r = 0 ∨ (s.getV y).toNat + (r - 1) < 32) ∧ 4096 ≤ s.indexed r) →
      exec (.drw x y n) s = .fault (.memoryOutOfRange (max (s.indexed 0) 4096)))

/-! ### Keypad and timers -/

/-- `Ex9E` and `ExA1`: PC + 2 when key Vx is pressed, or is not (R119, R120); a Vx of 16 or more is the
fault KeyIndexOutOfRange with Vx, the spec's decision D11 (R153). -/
def Obligations.KeySkipsTestTheKey : Prop :=
  ∀ (x : Reg) (s : State),
    (∀ key, decodeWord key (packXK 0xE#4 x 0x9E#8) = .skp x ∧
      decodeWord key (packXK 0xE#4 x 0xA1#8) = .sknp x) ∧
    (∀ c : KeyCode, (s.getV x).toNat = c.val →
      (∃ t, exec (.skp x) s = .next t ∧
        t.pc = (if s.getKey c = true then BitVec.ofNat 16 (s.pc.toNat + 2) else s.pc) ∧
        ChangesOnly (· = .pc) s t) ∧
      (∃ t, exec (.sknp x) s = .next t ∧
        t.pc = (if s.getKey c = true then s.pc else BitVec.ofNat 16 (s.pc.toNat + 2)) ∧
        ChangesOnly (· = .pc) s t)) ∧
    (16 ≤ (s.getV x).toNat →
      exec (.skp x) s = .fault (.keyIndexOutOfRange (s.getV x)) ∧
      exec (.sknp x) s = .fault (.keyIndexOutOfRange (s.getV x)))

/-- `Fx07`, `Fx15`, `Fx18`; at the tick, what `Fx07` reads is what this tick's decrement left, and what
`Fx15` and `Fx18` write stands after it (R121-R123). -/
def Obligations.TimersAreReadAndWritten : Prop :=
  ∀ (x : Reg) (s : State),
    (∀ key, decodeWord key (packXK 0xF#4 x 0x07#8) = .ldVxDt x ∧
      decodeWord key (packXK 0xF#4 x 0x15#8) = .ldDtVx x ∧
      decodeWord key (packXK 0xF#4 x 0x18#8) = .ldStVx x) ∧
    (∃ t, exec (.ldVxDt x) s = .next t ∧ t.getV x = s.dt ∧ ChangesOnly (· = .v x) s t) ∧
    (∃ t, exec (.ldDtVx x) s = .next t ∧ t.dt = s.getV x ∧ ChangesOnly (· = .dt) s t) ∧
    (∃ t, exec (.ldStVx x) s = .next t ∧ t.st = s.getV x ∧ ChangesOnly (· = .st) s t) ∧
    (s.ticksNext → s.nextInstr = .ldVxDt x →
      ∃ t, step s = .next t ∧ (t.getV x).toNat = s.dt.toNat - 1) ∧
    (s.ticksNext → s.nextInstr = .ldDtVx x → ∃ t, step s = .next t ∧ t.dt = s.getV x) ∧
    (s.ticksNext → s.nextInstr = .ldStVx x → ∃ t, step s = .next t ∧ t.st = s.getV x)

/-- A value written to DT by `Fx15` is read by `Fx07` on the next tick as one less, floor 0 (the spec
derives it: R176, from R71, R121 and R122). -/
def Obligations.DelayTimerReadsOneLessOnTheNextTick : Prop :=
  ∀ (x y : Reg) (s t : State), s.ticksNext → s.nextInstr = .ldDtVx x → step s = .next t →
    t.ticksNext → t.nextInstr = .ldVxDt y →
    ∃ u, step t = .next u ∧ (u.getV y).toNat = (s.getV x).toNat - 1

/-- `Fx0A`: one step of the blocking-read state machine; the instruction completes in every state
(R125-R128; that the rewound PC is PC - 2 is the spec's decision D30 in R124). -/
def Obligations.KeyWaitStepsItsStateMachine : Prop :=
  ∀ (x : Reg) (s : State),
    (∀ key, decodeWord key (packXK 0xF#4 x 0x0A#8) = .ldVxK x) ∧
    ∃ t, exec (.ldVxK x) s = .next t ∧
      (s.kblock ≠ .unlocked → t.pc = s.pc - 2#16 ∧ ∀ r, t.getV r = s.getV r) ∧
      (s.kblock = .idle → t.kblock = .locked) ∧
      (s.kblock = .locked → t.kblock = .locked) ∧
      (s.kblock = .waitingForRelease → s.getKey s.lastKey = false → t.kblock = .unlocked) ∧
      (s.kblock = .waitingForRelease → s.getKey s.lastKey = true → t.kblock = .waitingForRelease) ∧
      (s.kblock = .unlocked →
        t.kblock = .idle ∧ (t.getV x).toNat = s.lastKey.val ∧ t.pc = s.pc) ∧
      ChangesOnly (fun p => p = .pc ∨ p = .kblock ∨ p = .v x) s t

/-- The complete transition table of KBLOCK: a step either leaves KBLOCK as it is, or is a tick
executing `Fx0A`, a key-down while Locked, or a reset, with the transition the table gives (the spec
derives it: R131, R132). -/
def Obligations.KeyBlockMovesOnlyByItsTable : Prop :=
  ∀ s t : State, step s = .next t →
    t.kblock = s.kblock ∨
    (s.due = none ∧ (∃ x, s.nextInstr = .ldVxK x) ∧
      ((s.kblock = .idle ∧ t.kblock = .locked) ∨
       (s.kblock = .waitingForRelease ∧ s.getKey s.lastKey = false ∧ t.kblock = .unlocked) ∨
       (s.kblock = .unlocked ∧ t.kblock = .idle))) ∨
    (∃ (c : KeyCode) (ops : List (Nat × HostOp)), s.due = some (.keySet c.val true, ops) ∧
      s.kblock = .locked ∧ t.kblock = .waitingForRelease ∧ t.lastKey = c) ∨
    ((∃ ops : List (Nat × HostOp), s.due = some (.reset, ops)) ∧ t.kblock = .idle)

/-- A wait for which no key-down arrives is an endless sequence of ticks with PC fixed (R126, R134):
with no host transaction pending in the model's `script`, any number of ticks completes, counted in its
`ticks`, and leaves PC, KBLOCK and the registers where they are (log entry 8). A wait with other
transactions than a key-down pending is not covered. -/
def Obligations.UnansweredWaitNeverAdvances : Prop :=
  ∀ (n : Nat) (x : Reg) (s : State), s.script = [] → s.pc.toNat + 1 < 4096 →
    s.kblock = .locked → s.nextInstr = .ldVxK x →
    ∃ t, Host.Core.run core n s = .next t ∧ t.pc = s.pc ∧ t.kblock = .locked ∧
      t.ticks = s.ticks + n ∧ ∀ r, t.getV r = s.getV r

/-- Pressing a key while Locked and then releasing it resolves the wait within two further ticks: Vx
holds the key's code and PC is past the instruction (the spec derives it: R133; the two key events are
pending in the model's script, log entry 8). -/
def Obligations.PressAndReleaseResolveTheWait : Prop :=
  ∀ (x : Reg) (c : KeyCode) (s : State), s.pc.toNat + 1 < 4096 → s.kblock = .locked →
    s.nextInstr = .ldVxK x →
    s.script = [(s.ticks, .keySet c.val true), (s.ticks, .keySet c.val false)] →
    ∃ t, Host.Core.run core 4 s = .next t ∧ (t.getV x).toNat = c.val ∧ t.kblock = .idle ∧
      t.pc = BitVec.ofNat 16 (s.pc.toNat + 2) ∧ t.ticks = s.ticks + 2

/-! ### Host transactions -/

/-- *key_set*(code, pressed) and *is_key_pressed*(code) (R129, R130, R140, R141); when LASTKEY is
recorded outside Locked is the spec's decision D7, the refusal of a code above 0xF its decision D20. -/
def Obligations.KeySetRecordsTheEvent : Prop :=
  ∀ (pressed : Bool) (s : State),
    (∀ c : KeyCode, ∃ t, performHostOp (.keySet c.val pressed) s = .next t ∧ t.getKey c = pressed ∧
      (pressed = true ∧ s.kblock = .locked → t.kblock = .waitingForRelease ∧ t.lastKey = c) ∧
      (pressed = true ∧ s.kblock ≠ .locked → t.kblock = s.kblock ∧
        t.lastKey = if s.cfg.lastKeyRecord = .everyPress then c else s.lastKey) ∧
      (pressed = false → t.kblock = s.kblock ∧ t.lastKey = s.lastKey) ∧
      ChangesOnly (fun p => p = .key c ∨ p = .kblock ∨ p = .lastKey) s t) ∧
    (∀ code : Nat, 16 ≤ code →
      performHostOp (.keySet code pressed) s = .refused (.keyCodeOutOfRange code) ∧
      isKeyPressed s code = .error (.keyCodeOutOfRange code))

/-- *load*(bytes): the image from ORIGIN on and nothing else (R137); refused when it does not fit, the
spec's decision D19. -/
def Obligations.LoadCopiesTheImage : Prop :=
  ∀ (bytes : List Byte) (s : State), s.mem.wf = true →
    (s.cfg.origin.toNat + bytes.length ≤ 4096 → ∃ t, performHostOp (.load bytes) s = .next t ∧
      (∀ k (h : k < bytes.length), Memory.read t.mem (s.cfg.origin.toNat + k) = bytes[k]) ∧
      ChangesOnly (fun p => ∃ k, k < bytes.length ∧ p = .mem (s.cfg.origin.toNat + k)) s t) ∧
    (4096 < s.cfg.origin.toNat + bytes.length →
      performHostOp (.load bytes) s = .refused .loadDoesNotFit)

/-- *reset*() in any state: every element at its value after reset (R37, R167); DIRTY, KEYS to LASTKEY
and STACK are the spec's decisions D16, D17 and D18, and that V, I and LASTINSN are kept its decisions
D37 and D15. -/
def Obligations.HostResetLeavesTheResetValues : Prop :=
  ∀ s : State, ∃ t, performHostOp .reset s = .next t ∧
    (∀ r, t.getV r = s.getV r) ∧ t.i = s.i ∧ t.pc = s.cfg.origin ∧ t.sp.toInt = -1 ∧
    (∀ j, t.getStack j = 0#16) ∧ t.dt = 0#8 ∧ t.st = 0#8 ∧ (∀ a, Memory.read t.mem a = 0#8) ∧
    (∀ k, t.getFb k = 0#8) ∧ t.dirty = s.cfg.resetDirty ∧ (∀ c, t.getKey c = false) ∧
    t.kblock = .idle ∧ t.lastKey = 0 ∧ t.lastInsn = s.lastInsn ∧ t.cfg = s.cfg

/-- *construct*(origin): every element at its value after construct (R36; its decisions D15 and D17); an
origin above 0xFFE is refused, the spec's decision D21 (R136). -/
def Obligations.ConstructLeavesTheConstructValues : Prop :=
  ∀ cfg : Config,
    (cfg.origin.toNat ≤ 0xFFE → ∃ t, hostConstruct cfg = .next t ∧
      (∀ r, t.getV r = 0#8) ∧ t.i = 0#16 ∧ t.pc = cfg.origin ∧ t.sp.toInt = -1 ∧
      (∀ j, t.getStack j = 0#16) ∧ t.dt = 0#8 ∧ t.st = 0#8 ∧ (∀ a, Memory.read t.mem a = 0#8) ∧
      (∀ k, t.getFb k = 0#8) ∧ t.dirty = false ∧ (∀ c, t.getKey c = false) ∧
      t.kblock = .idle ∧ t.lastKey = 0 ∧ t.lastInsn = 0#16 ∧ t.cfg = cfg) ∧
    (0xFFE < cfg.origin.toNat → hostConstruct cfg = .refused .originOutOfRange)

/-- `FreshLaunch`: the state after *construct*(origin) and *load*(image), with the key script pending
and no tick counted (R172; script and ticks are the model's fields, log entry 8); refused when the
origin or the image is not admissible, the spec's decisions D21 and D19. -/
def Obligations.FreshLaunchStartsTheImage : Prop :=
  ∀ (cfg : Config) (image : List Byte) (keys : List KeyEvent),
    (cfg.origin.toNat ≤ 0xFFE → cfg.origin.toNat + image.length ≤ 4096 →
      ∃ t, freshLaunch cfg image keys = .next t ∧ t.pc = cfg.origin ∧ t.ticks = 0 ∧
        t.script = keys.map (fun e => (e.ticks, HostOp.keySet e.code.val e.pressed)) ∧
        (∀ k (h : k < image.length), Memory.read t.mem (cfg.origin.toNat + k) = image[k]) ∧
        ChangesOnly (fun p => p = .script ∨ ∃ k, k < image.length ∧ p = .mem (cfg.origin.toNat + k))
          (State.constructed cfg) t) ∧
    (0xFFE < cfg.origin.toNat → freshLaunch cfg image keys = .refused .originOutOfRange) ∧
    (cfg.origin.toNat ≤ 0xFFE → 4096 < cfg.origin.toNat + image.length →
      freshLaunch cfg image keys = .refused .loadDoesNotFit)

/-- *clear_dirty*() clears DIRTY alone (R143); the queries report the raw cells and DIRTY (R142, the
spec's decision D35), ST > 0 (R144), LASTINSN (R145) and, for each of the 16 codes, the key state (R141;
larger codes, its decision D20, are in `KeySetRecordsTheEvent`). -/
def Obligations.HostQueriesReportTheState : Prop :=
  ∀ s : State,
    (∃ t, performHostOp .clearDirty s = .next t ∧ t.dirty = false ∧ ChangesOnly (· = .dirty) s t) ∧
    (framebuffer s).1.length = 2048 ∧
    (∀ k, k < 2048 → (framebuffer s).1[k]? = some (s.getFb k)) ∧ (framebuffer s).2 = s.dirty ∧
    (soundOn s = true ↔ s.st ≠ 0#8) ∧ lastInstruction s = s.lastInsn ∧
    (∀ c : KeyCode, isKeyPressed s c.val = .ok (s.getKey c))

/-- The model's choice (log entry 8): the first host transaction of the script whose tick count is reached is
the next step, alone, wherever it stands in the script; with none, the step is a tick (R135, R172). -/
def Obligations.DueTransactionIsOneStep : Prop :=
  (∀ (before after : List (Nat × HostOp)) (n : Nat) (op : HostOp) (s : State),
    s.script = before ++ (n, op) :: after → (∀ p ∈ before, s.ticks < p.1) → n ≤ s.ticks →
    step s = performHostOp op { s with script := before ++ after }) ∧
  (∀ s : State, (∀ p ∈ s.script, s.ticks < p.1) → step s = tick s)

/-- No host transaction changes a general register, I, LASTINSN or a parameter. For *load*, *key_set*
and *clear_dirty* this is R137, R140 and R143; that *reset* keeps V is R37 and R167, and that it keeps I
and LASTINSN the spec's decisions D37 and D15. -/
def Obligations.HostTransactionsLeaveRegistersAlone : Prop :=
  ∀ (op : HostOp) (s t : State), performHostOp op s = .next t →
    (∀ r, t.getV r = s.getV r) ∧ t.i = s.i ∧ t.lastInsn = s.lastInsn ∧ t.cfg = s.cfg

/-- The machine right after reset with the default parameters: the spec's values after reset. That V, I and
LASTINSN are 0 is the model's choice, construct's values (log entry 1; R36, R37). -/
def Obligations.ResetStateHasTheDefaultValues : Prop :=
  State.reset.pc = 0x200#16 ∧ State.reset.sp.toInt = -1 ∧
  (∀ j, State.reset.getStack j = 0#16) ∧ State.reset.dt = 0#8 ∧ State.reset.st = 0#8 ∧
  (∀ a, Memory.read State.reset.mem a = 0#8) ∧ (∀ k, State.reset.getFb k = 0#8) ∧
  State.reset.dirty = true ∧ (∀ c, State.reset.getKey c = false) ∧ State.reset.kblock = .idle ∧
  State.reset.lastKey = 0 ∧ (∀ r, State.reset.getV r = 0#8) ∧ State.reset.i = 0#16 ∧
  State.reset.lastInsn = 0#16

/-! ### The whole machine -/

/-- Every instruction changes only what the state's index of writers lists for it (R17-R32, R44): no
other register, stack slot, timer, memory byte, framebuffer cell or key. The cells a draw may change are
those under the sprite at coordinates that do not wrap (R115, R117), the spec's decision D6, and that
Fx55 and Fx65 keep I is its decision D28 (log entry 16). -/
def Obligations.InstructionsWriteOnlyWhatIsListed : Prop :=
  ∀ (i : Instr) (s t : State), s.mem.wf = true → s.fb.fbWf = true → exec i s = .next t →
    ChangesOnly (fun p => mayWrite i s p = true) s t

/-- No tick changes a key, LASTKEY, a parameter (log entry 2) or the model's pending script (log entry 8): keys
are written only by the host (R29, R31, R35). -/
def Obligations.TicksLeaveKeysToTheHost : Prop :=
  ∀ s t : State, s.ticksNext → step s = .next t →
    (∀ c, t.getKey c = s.getKey c) ∧ t.lastKey = s.lastKey ∧ t.cfg = s.cfg ∧ t.script = s.script

/-- The reset state meets the invariant (R21, R36-R38). -/
def Obligations.ResetStateMeetsInvariant : Prop := Inv State.reset

/-- Every step, a tick or a host transaction, keeps the invariant: PC at most 0x10FE, every stack slot at
most 0x1000, memory and framebuffer in canonical form, an admissible ORIGIN (R21, R26, R27, R38). -/
def Obligations.StepKeepsInvariant : Prop :=
  ∀ s t : State, Inv s → step s = .next t → Inv t

/-- Under `PIXEL_XOR_FORM = normalized`, the spec's decision D5, every framebuffer cell stays 0 or 1
(R113). -/
def Obligations.NormalizedCellsStayBits : Prop :=
  ∀ s t : State, s.cfg.pixelXor = .normalized → s.fb.fbWf = true →
    (∀ k, s.getFb k = 0#8 ∨ s.getFb k = 1#8) → step s = .next t →
    ∀ k, t.getFb k = 0#8 ∨ t.getFb k = 1#8

/-- ST, DIRTY and LASTINSN are read by no instruction: states that differ only in them step alike, up to
them (R25, R28, R32). -/
def Obligations.OutputsDoNotInfluenceTheRun : Prop :=
  ∀ s : State, viewOutcome State.withoutOutputs (step s.withoutOutputs) =
    viewOutcome State.withoutOutputs (step s)

/-- The content of the stack slots above SP is unobservable: states that differ only in it step alike, up
to it (R23, R34). -/
def Obligations.DeadStackSlotsAreUnobservable : Prop :=
  ∀ s : State, viewOutcome State.withoutDeadSlots (step s.withoutDeadSlots) =
    viewOutcome State.withoutDeadSlots (step s)

/-- At a self-jump a tick changes nothing but the timers and LASTINSN, which becomes the self-jump, and
the model's tick count and result (the spec's sentence in R173; log entries 6 and 8). -/
def Obligations.SelfJumpIsAFixedPoint : Prop :=
  ∀ (e : Addr12) (s : State), s.ticksNext → s.pc.toNat = e.toNat →
    s.nextWord.toNat = 0x1000 + e.toNat →
    ∃ t, step s = .next t ∧ t.lastInsn = s.nextWord ∧ t.dt.toNat = s.dt.toNat - 1 ∧
      t.st.toNat = s.st.toNat - 1 ∧
      ChangesOnly (fun p => p = .dt ∨ p = .st ∨ p = .lastInsn ∨ p = .ticks ∨ p = .result) s t
end

