-- ==== Sys2Proof/Laws/Decode.lean ====
section
/-! SUPPORT. The fields of a word built from its parts, and the parts of a word (spec/30_encoding.md R54). -/

namespace Sys2Proof

@[simp] theorem regOf_regBits (r : Reg) : regOf (regBits r) = r := by
  revert r; decide

@[simp] theorem regBits_regOf (b : Nibble) : regBits (regOf b) = b := by
  revert b; decide

/-- A field of a word that starts inside the upper part of an append. -/
theorem extract_high {n m : Nat} (a : BitVec n) (b : BitVec m) : (a ++ b).extractLsb' m n = a := by
  ext i hi
  simp [BitVec.getLsbD_append, BitVec.getLsbD_eq_getElem hi]

/-- A field of a word that lies inside the lower part of an append. -/
theorem extract_low {n m : Nat} (a : BitVec n) (b : BitVec m) (s l : Nat) (h : s + l ≤ m) :
    (a ++ b).extractLsb' s l = b.extractLsb' s l := by
  ext i hi
  simp [BitVec.getElem_extractLsb', BitVec.getLsbD_append, show s + i < m by omega]

theorem extract_all {n : Nat} (a : BitVec n) : a.extractLsb' 0 n = a := by
  ext i hi
  simp

@[simp] theorem opG_packA (g : Nibble) (a : Addr12) : opG (packA g a) = g := extract_high g a
@[simp] theorem opNnn_packA (g : Nibble) (a : Addr12) : opNnn (packA g a) = a :=
  (extract_low g a 0 12 (by decide)).trans (extract_all a)

@[simp] theorem opG_packXK (g : Nibble) (x : Reg) (kk : Byte) : opG (packXK g x kk) = g :=
  extract_high g _
@[simp] theorem opX_packXK (g : Nibble) (x : Reg) (kk : Byte) : opX (packXK g x kk) = x := by
  rw [opX, opXBits, packXK, extract_low g _ 8 4 (by decide), extract_high, regOf_regBits]
@[simp] theorem opKk_packXK (g : Nibble) (x : Reg) (kk : Byte) : opKk (packXK g x kk) = kk := by
  rw [opKk, packXK, extract_low g _ 0 8 (by decide), extract_low _ kk 0 8 (by decide), extract_all]

@[simp] theorem opG_packXYN (g : Nibble) (x y : Reg) (n : Nibble) : opG (packXYN g x y n) = g :=
  extract_high g _
@[simp] theorem opX_packXYN (g : Nibble) (x y : Reg) (n : Nibble) : opX (packXYN g x y n) = x := by
  rw [opX, opXBits, packXYN, extract_low g _ 8 4 (by decide), extract_high, regOf_regBits]
@[simp] theorem opY_packXYN (g : Nibble) (x y : Reg) (n : Nibble) : opY (packXYN g x y n) = y := by
  rw [opY, opYBits, packXYN, extract_low g _ 4 4 (by decide), extract_low _ _ 4 4 (by decide),
    extract_high, regOf_regBits]
@[simp] theorem opN_packXYN (g : Nibble) (x y : Reg) (n : Nibble) : opN (packXYN g x y n) = n := by
  rw [opN, packXYN, extract_low g _ 0 4 (by decide), extract_low _ _ 0 4 (by decide),
    extract_low _ n 0 4 (by decide), extract_all]

/-- A word is its group and its address field. -/
theorem packA_fields (w : Word) : packA (opG w) (opNnn w) = w := by
  apply BitVec.eq_of_getLsbD_eq
  intro i hi
  simp only [packA, opG, opNnn, BitVec.getLsbD_append, BitVec.getLsbD_extractLsb']
  by_cases h : i < 12
  · simp [h]
  · simp [h, show i - 12 < 4 by omega, show 12 + (i - 12) = i by omega]

/-- A word is its group, its register field and its byte. -/
theorem packXK_fields (w : Word) : packXK (opG w) (opX w) (opKk w) = w := by
  apply BitVec.eq_of_getLsbD_eq
  intro i hi
  simp only [packXK, opG, opX, opXBits, opKk, regBits_regOf, BitVec.getLsbD_append,
    BitVec.getLsbD_extractLsb']
  by_cases h : i < 8
  · simp [h, show i < 12 by omega]
  · by_cases h' : i < 12
    · simp [h, h', show i - 8 < 4 by omega, show 8 + (i - 8) = i by omega]
    · simp [h', show i - 12 < 4 by omega, show 12 + (i - 12) = i by omega]

/-- A word is its group, its two register fields and its low nibble. -/
theorem packXYN_fields (w : Word) : packXYN (opG w) (opX w) (opY w) (opN w) = w := by
  apply BitVec.eq_of_getLsbD_eq
  intro i hi
  simp only [packXYN, opG, opX, opXBits, opY, opYBits, opN, regBits_regOf, BitVec.getLsbD_append,
    BitVec.getLsbD_extractLsb']
  by_cases h : i < 4
  · simp [h, show i < 8 by omega, show i < 12 by omega]
  · by_cases h' : i < 8
    · simp [h, h', show i < 12 by omega, show i - 4 < 4 by omega, show 4 + (i - 4) = i by omega]
    · by_cases h'' : i < 12
      · simp [h', h'', show i - 8 < 4 by omega, show 8 + (i - 8) = i by omega]
      · simp [h'', show i - 12 < 4 by omega, show 12 + (i - 12) = i by omega]

/-- The two bytes of a word make the word (R42). -/
@[simp] theorem wordOfBytes_bytes (w : Word) : wordOfBytes (hiByte w) (loByte w) = w := by
  apply BitVec.eq_of_getLsbD_eq
  intro i hi
  simp only [wordOfBytes, hiByte, loByte, BitVec.getLsbD_append, BitVec.getLsbD_extractLsb']
  by_cases h : i < 8
  · simp [h]
  · simp [h, show i - 8 < 8 by omega, show 8 + (i - 8) = i by omega]

end Sys2Proof
end

