-- ==== Sys2Proof/Laws/State.lean ====
section
/-! SUPPORT. What every update of the state does to every field, true by unfolding once here: no later proof
unfolds a record update. Below them, the indexed readings (registers, stack slots, keys, framebuffer
cells) after an update. -/

namespace Sys2Proof.Machine

/-! ### setV -/

@[simp] theorem State.setV_v (s : State) (x : Reg) (b : Byte) :
    (s.setV x b).v = s.v.set x.val b := rfl
@[simp] theorem State.setV_i (s : State) (x : Reg) (b : Byte) :
    (s.setV x b).i = s.i := rfl
@[simp] theorem State.setV_pc (s : State) (x : Reg) (b : Byte) :
    (s.setV x b).pc = s.pc := rfl
@[simp] theorem State.setV_sp (s : State) (x : Reg) (b : Byte) :
    (s.setV x b).sp = s.sp := rfl
@[simp] theorem State.setV_stack (s : State) (x : Reg) (b : Byte) :
    (s.setV x b).stack = s.stack := rfl
@[simp] theorem State.setV_dt (s : State) (x : Reg) (b : Byte) :
    (s.setV x b).dt = s.dt := rfl
@[simp] theorem State.setV_st (s : State) (x : Reg) (b : Byte) :
    (s.setV x b).st = s.st := rfl
@[simp] theorem State.setV_mem (s : State) (x : Reg) (b : Byte) :
    (s.setV x b).mem = s.mem := rfl
@[simp] theorem State.setV_fb (s : State) (x : Reg) (b : Byte) :
    (s.setV x b).fb = s.fb := rfl
@[simp] theorem State.setV_dirty (s : State) (x : Reg) (b : Byte) :
    (s.setV x b).dirty = s.dirty := rfl
@[simp] theorem State.setV_keys (s : State) (x : Reg) (b : Byte) :
    (s.setV x b).keys = s.keys := rfl
@[simp] theorem State.setV_kblock (s : State) (x : Reg) (b : Byte) :
    (s.setV x b).kblock = s.kblock := rfl
@[simp] theorem State.setV_lastKey (s : State) (x : Reg) (b : Byte) :
    (s.setV x b).lastKey = s.lastKey := rfl
@[simp] theorem State.setV_lastInsn (s : State) (x : Reg) (b : Byte) :
    (s.setV x b).lastInsn = s.lastInsn := rfl
@[simp] theorem State.setV_cfg (s : State) (x : Reg) (b : Byte) :
    (s.setV x b).cfg = s.cfg := rfl
@[simp] theorem State.setV_draws (s : State) (x : Reg) (b : Byte) :
    (s.setV x b).draws = s.draws := rfl
@[simp] theorem State.setV_script (s : State) (x : Reg) (b : Byte) :
    (s.setV x b).script = s.script := rfl
@[simp] theorem State.setV_ticks (s : State) (x : Reg) (b : Byte) :
    (s.setV x b).ticks = s.ticks := rfl
@[simp] theorem State.setV_result (s : State) (x : Reg) (b : Byte) :
    (s.setV x b).result = s.result := rfl

/-! ### setI -/

@[simp] theorem State.setI_v (s : State) (w : Word) :
    (s.setI w).v = s.v := rfl
@[simp] theorem State.setI_i (s : State) (w : Word) :
    (s.setI w).i = w := rfl
@[simp] theorem State.setI_pc (s : State) (w : Word) :
    (s.setI w).pc = s.pc := rfl
@[simp] theorem State.setI_sp (s : State) (w : Word) :
    (s.setI w).sp = s.sp := rfl
@[simp] theorem State.setI_stack (s : State) (w : Word) :
    (s.setI w).stack = s.stack := rfl
@[simp] theorem State.setI_dt (s : State) (w : Word) :
    (s.setI w).dt = s.dt := rfl
@[simp] theorem State.setI_st (s : State) (w : Word) :
    (s.setI w).st = s.st := rfl
@[simp] theorem State.setI_mem (s : State) (w : Word) :
    (s.setI w).mem = s.mem := rfl
@[simp] theorem State.setI_fb (s : State) (w : Word) :
    (s.setI w).fb = s.fb := rfl
@[simp] theorem State.setI_dirty (s : State) (w : Word) :
    (s.setI w).dirty = s.dirty := rfl
@[simp] theorem State.setI_keys (s : State) (w : Word) :
    (s.setI w).keys = s.keys := rfl
@[simp] theorem State.setI_kblock (s : State) (w : Word) :
    (s.setI w).kblock = s.kblock := rfl
@[simp] theorem State.setI_lastKey (s : State) (w : Word) :
    (s.setI w).lastKey = s.lastKey := rfl
@[simp] theorem State.setI_lastInsn (s : State) (w : Word) :
    (s.setI w).lastInsn = s.lastInsn := rfl
@[simp] theorem State.setI_cfg (s : State) (w : Word) :
    (s.setI w).cfg = s.cfg := rfl
@[simp] theorem State.setI_draws (s : State) (w : Word) :
    (s.setI w).draws = s.draws := rfl
@[simp] theorem State.setI_script (s : State) (w : Word) :
    (s.setI w).script = s.script := rfl
@[simp] theorem State.setI_ticks (s : State) (w : Word) :
    (s.setI w).ticks = s.ticks := rfl
@[simp] theorem State.setI_result (s : State) (w : Word) :
    (s.setI w).result = s.result := rfl

/-! ### setPc -/

@[simp] theorem State.setPc_v (s : State) (w : Word) :
    (s.setPc w).v = s.v := rfl
@[simp] theorem State.setPc_i (s : State) (w : Word) :
    (s.setPc w).i = s.i := rfl
@[simp] theorem State.setPc_pc (s : State) (w : Word) :
    (s.setPc w).pc = w := rfl
@[simp] theorem State.setPc_sp (s : State) (w : Word) :
    (s.setPc w).sp = s.sp := rfl
@[simp] theorem State.setPc_stack (s : State) (w : Word) :
    (s.setPc w).stack = s.stack := rfl
@[simp] theorem State.setPc_dt (s : State) (w : Word) :
    (s.setPc w).dt = s.dt := rfl
@[simp] theorem State.setPc_st (s : State) (w : Word) :
    (s.setPc w).st = s.st := rfl
@[simp] theorem State.setPc_mem (s : State) (w : Word) :
    (s.setPc w).mem = s.mem := rfl
@[simp] theorem State.setPc_fb (s : State) (w : Word) :
    (s.setPc w).fb = s.fb := rfl
@[simp] theorem State.setPc_dirty (s : State) (w : Word) :
    (s.setPc w).dirty = s.dirty := rfl
@[simp] theorem State.setPc_keys (s : State) (w : Word) :
    (s.setPc w).keys = s.keys := rfl
@[simp] theorem State.setPc_kblock (s : State) (w : Word) :
    (s.setPc w).kblock = s.kblock := rfl
@[simp] theorem State.setPc_lastKey (s : State) (w : Word) :
    (s.setPc w).lastKey = s.lastKey := rfl
@[simp] theorem State.setPc_lastInsn (s : State) (w : Word) :
    (s.setPc w).lastInsn = s.lastInsn := rfl
@[simp] theorem State.setPc_cfg (s : State) (w : Word) :
    (s.setPc w).cfg = s.cfg := rfl
@[simp] theorem State.setPc_draws (s : State) (w : Word) :
    (s.setPc w).draws = s.draws := rfl
@[simp] theorem State.setPc_script (s : State) (w : Word) :
    (s.setPc w).script = s.script := rfl
@[simp] theorem State.setPc_ticks (s : State) (w : Word) :
    (s.setPc w).ticks = s.ticks := rfl
@[simp] theorem State.setPc_result (s : State) (w : Word) :
    (s.setPc w).result = s.result := rfl

/-! ### setDt -/

@[simp] theorem State.setDt_v (s : State) (b : Byte) :
    (s.setDt b).v = s.v := rfl
@[simp] theorem State.setDt_i (s : State) (b : Byte) :
    (s.setDt b).i = s.i := rfl
@[simp] theorem State.setDt_pc (s : State) (b : Byte) :
    (s.setDt b).pc = s.pc := rfl
@[simp] theorem State.setDt_sp (s : State) (b : Byte) :
    (s.setDt b).sp = s.sp := rfl
@[simp] theorem State.setDt_stack (s : State) (b : Byte) :
    (s.setDt b).stack = s.stack := rfl
@[simp] theorem State.setDt_dt (s : State) (b : Byte) :
    (s.setDt b).dt = b := rfl
@[simp] theorem State.setDt_st (s : State) (b : Byte) :
    (s.setDt b).st = s.st := rfl
@[simp] theorem State.setDt_mem (s : State) (b : Byte) :
    (s.setDt b).mem = s.mem := rfl
@[simp] theorem State.setDt_fb (s : State) (b : Byte) :
    (s.setDt b).fb = s.fb := rfl
@[simp] theorem State.setDt_dirty (s : State) (b : Byte) :
    (s.setDt b).dirty = s.dirty := rfl
@[simp] theorem State.setDt_keys (s : State) (b : Byte) :
    (s.setDt b).keys = s.keys := rfl
@[simp] theorem State.setDt_kblock (s : State) (b : Byte) :
    (s.setDt b).kblock = s.kblock := rfl
@[simp] theorem State.setDt_lastKey (s : State) (b : Byte) :
    (s.setDt b).lastKey = s.lastKey := rfl
@[simp] theorem State.setDt_lastInsn (s : State) (b : Byte) :
    (s.setDt b).lastInsn = s.lastInsn := rfl
@[simp] theorem State.setDt_cfg (s : State) (b : Byte) :
    (s.setDt b).cfg = s.cfg := rfl
@[simp] theorem State.setDt_draws (s : State) (b : Byte) :
    (s.setDt b).draws = s.draws := rfl
@[simp] theorem State.setDt_script (s : State) (b : Byte) :
    (s.setDt b).script = s.script := rfl
@[simp] theorem State.setDt_ticks (s : State) (b : Byte) :
    (s.setDt b).ticks = s.ticks := rfl
@[simp] theorem State.setDt_result (s : State) (b : Byte) :
    (s.setDt b).result = s.result := rfl

/-! ### setSt -/

@[simp] theorem State.setSt_v (s : State) (b : Byte) :
    (s.setSt b).v = s.v := rfl
@[simp] theorem State.setSt_i (s : State) (b : Byte) :
    (s.setSt b).i = s.i := rfl
@[simp] theorem State.setSt_pc (s : State) (b : Byte) :
    (s.setSt b).pc = s.pc := rfl
@[simp] theorem State.setSt_sp (s : State) (b : Byte) :
    (s.setSt b).sp = s.sp := rfl
@[simp] theorem State.setSt_stack (s : State) (b : Byte) :
    (s.setSt b).stack = s.stack := rfl
@[simp] theorem State.setSt_dt (s : State) (b : Byte) :
    (s.setSt b).dt = s.dt := rfl
@[simp] theorem State.setSt_st (s : State) (b : Byte) :
    (s.setSt b).st = b := rfl
@[simp] theorem State.setSt_mem (s : State) (b : Byte) :
    (s.setSt b).mem = s.mem := rfl
@[simp] theorem State.setSt_fb (s : State) (b : Byte) :
    (s.setSt b).fb = s.fb := rfl
@[simp] theorem State.setSt_dirty (s : State) (b : Byte) :
    (s.setSt b).dirty = s.dirty := rfl
@[simp] theorem State.setSt_keys (s : State) (b : Byte) :
    (s.setSt b).keys = s.keys := rfl
@[simp] theorem State.setSt_kblock (s : State) (b : Byte) :
    (s.setSt b).kblock = s.kblock := rfl
@[simp] theorem State.setSt_lastKey (s : State) (b : Byte) :
    (s.setSt b).lastKey = s.lastKey := rfl
@[simp] theorem State.setSt_lastInsn (s : State) (b : Byte) :
    (s.setSt b).lastInsn = s.lastInsn := rfl
@[simp] theorem State.setSt_cfg (s : State) (b : Byte) :
    (s.setSt b).cfg = s.cfg := rfl
@[simp] theorem State.setSt_draws (s : State) (b : Byte) :
    (s.setSt b).draws = s.draws := rfl
@[simp] theorem State.setSt_script (s : State) (b : Byte) :
    (s.setSt b).script = s.script := rfl
@[simp] theorem State.setSt_ticks (s : State) (b : Byte) :
    (s.setSt b).ticks = s.ticks := rfl
@[simp] theorem State.setSt_result (s : State) (b : Byte) :
    (s.setSt b).result = s.result := rfl

/-! ### setMem -/

@[simp] theorem State.setMem_v (s : State) (m : Memory) :
    (s.setMem m).v = s.v := rfl
@[simp] theorem State.setMem_i (s : State) (m : Memory) :
    (s.setMem m).i = s.i := rfl
@[simp] theorem State.setMem_pc (s : State) (m : Memory) :
    (s.setMem m).pc = s.pc := rfl
@[simp] theorem State.setMem_sp (s : State) (m : Memory) :
    (s.setMem m).sp = s.sp := rfl
@[simp] theorem State.setMem_stack (s : State) (m : Memory) :
    (s.setMem m).stack = s.stack := rfl
@[simp] theorem State.setMem_dt (s : State) (m : Memory) :
    (s.setMem m).dt = s.dt := rfl
@[simp] theorem State.setMem_st (s : State) (m : Memory) :
    (s.setMem m).st = s.st := rfl
@[simp] theorem State.setMem_mem (s : State) (m : Memory) :
    (s.setMem m).mem = m := rfl
@[simp] theorem State.setMem_fb (s : State) (m : Memory) :
    (s.setMem m).fb = s.fb := rfl
@[simp] theorem State.setMem_dirty (s : State) (m : Memory) :
    (s.setMem m).dirty = s.dirty := rfl
@[simp] theorem State.setMem_keys (s : State) (m : Memory) :
    (s.setMem m).keys = s.keys := rfl
@[simp] theorem State.setMem_kblock (s : State) (m : Memory) :
    (s.setMem m).kblock = s.kblock := rfl
@[simp] theorem State.setMem_lastKey (s : State) (m : Memory) :
    (s.setMem m).lastKey = s.lastKey := rfl
@[simp] theorem State.setMem_lastInsn (s : State) (m : Memory) :
    (s.setMem m).lastInsn = s.lastInsn := rfl
@[simp] theorem State.setMem_cfg (s : State) (m : Memory) :
    (s.setMem m).cfg = s.cfg := rfl
@[simp] theorem State.setMem_draws (s : State) (m : Memory) :
    (s.setMem m).draws = s.draws := rfl
@[simp] theorem State.setMem_script (s : State) (m : Memory) :
    (s.setMem m).script = s.script := rfl
@[simp] theorem State.setMem_ticks (s : State) (m : Memory) :
    (s.setMem m).ticks = s.ticks := rfl
@[simp] theorem State.setMem_result (s : State) (m : Memory) :
    (s.setMem m).result = s.result := rfl

/-! ### setFb -/

@[simp] theorem State.setFb_v (s : State) (k : Nat) (b : Byte) :
    (s.setFb k b).v = s.v := rfl
@[simp] theorem State.setFb_i (s : State) (k : Nat) (b : Byte) :
    (s.setFb k b).i = s.i := rfl
@[simp] theorem State.setFb_pc (s : State) (k : Nat) (b : Byte) :
    (s.setFb k b).pc = s.pc := rfl
@[simp] theorem State.setFb_sp (s : State) (k : Nat) (b : Byte) :
    (s.setFb k b).sp = s.sp := rfl
@[simp] theorem State.setFb_stack (s : State) (k : Nat) (b : Byte) :
    (s.setFb k b).stack = s.stack := rfl
@[simp] theorem State.setFb_dt (s : State) (k : Nat) (b : Byte) :
    (s.setFb k b).dt = s.dt := rfl
@[simp] theorem State.setFb_st (s : State) (k : Nat) (b : Byte) :
    (s.setFb k b).st = s.st := rfl
@[simp] theorem State.setFb_mem (s : State) (k : Nat) (b : Byte) :
    (s.setFb k b).mem = s.mem := rfl
@[simp] theorem State.setFb_fb (s : State) (k : Nat) (b : Byte) :
    (s.setFb k b).fb = Memory.write s.fb k b := rfl
@[simp] theorem State.setFb_dirty (s : State) (k : Nat) (b : Byte) :
    (s.setFb k b).dirty = s.dirty := rfl
@[simp] theorem State.setFb_keys (s : State) (k : Nat) (b : Byte) :
    (s.setFb k b).keys = s.keys := rfl
@[simp] theorem State.setFb_kblock (s : State) (k : Nat) (b : Byte) :
    (s.setFb k b).kblock = s.kblock := rfl
@[simp] theorem State.setFb_lastKey (s : State) (k : Nat) (b : Byte) :
    (s.setFb k b).lastKey = s.lastKey := rfl
@[simp] theorem State.setFb_lastInsn (s : State) (k : Nat) (b : Byte) :
    (s.setFb k b).lastInsn = s.lastInsn := rfl
@[simp] theorem State.setFb_cfg (s : State) (k : Nat) (b : Byte) :
    (s.setFb k b).cfg = s.cfg := rfl
@[simp] theorem State.setFb_draws (s : State) (k : Nat) (b : Byte) :
    (s.setFb k b).draws = s.draws := rfl
@[simp] theorem State.setFb_script (s : State) (k : Nat) (b : Byte) :
    (s.setFb k b).script = s.script := rfl
@[simp] theorem State.setFb_ticks (s : State) (k : Nat) (b : Byte) :
    (s.setFb k b).ticks = s.ticks := rfl
@[simp] theorem State.setFb_result (s : State) (k : Nat) (b : Byte) :
    (s.setFb k b).result = s.result := rfl

/-! ### clearFb -/

@[simp] theorem State.clearFb_v (s : State) :
    (s.clearFb).v = s.v := rfl
@[simp] theorem State.clearFb_i (s : State) :
    (s.clearFb).i = s.i := rfl
@[simp] theorem State.clearFb_pc (s : State) :
    (s.clearFb).pc = s.pc := rfl
@[simp] theorem State.clearFb_sp (s : State) :
    (s.clearFb).sp = s.sp := rfl
@[simp] theorem State.clearFb_stack (s : State) :
    (s.clearFb).stack = s.stack := rfl
@[simp] theorem State.clearFb_dt (s : State) :
    (s.clearFb).dt = s.dt := rfl
@[simp] theorem State.clearFb_st (s : State) :
    (s.clearFb).st = s.st := rfl
@[simp] theorem State.clearFb_mem (s : State) :
    (s.clearFb).mem = s.mem := rfl
@[simp] theorem State.clearFb_fb (s : State) :
    (s.clearFb).fb = [] := rfl
@[simp] theorem State.clearFb_dirty (s : State) :
    (s.clearFb).dirty = s.dirty := rfl
@[simp] theorem State.clearFb_keys (s : State) :
    (s.clearFb).keys = s.keys := rfl
@[simp] theorem State.clearFb_kblock (s : State) :
    (s.clearFb).kblock = s.kblock := rfl
@[simp] theorem State.clearFb_lastKey (s : State) :
    (s.clearFb).lastKey = s.lastKey := rfl
@[simp] theorem State.clearFb_lastInsn (s : State) :
    (s.clearFb).lastInsn = s.lastInsn := rfl
@[simp] theorem State.clearFb_cfg (s : State) :
    (s.clearFb).cfg = s.cfg := rfl
@[simp] theorem State.clearFb_draws (s : State) :
    (s.clearFb).draws = s.draws := rfl
@[simp] theorem State.clearFb_script (s : State) :
    (s.clearFb).script = s.script := rfl
@[simp] theorem State.clearFb_ticks (s : State) :
    (s.clearFb).ticks = s.ticks := rfl
@[simp] theorem State.clearFb_result (s : State) :
    (s.clearFb).result = s.result := rfl

/-! ### setDirty -/

@[simp] theorem State.setDirty_v (s : State) (d : Bool) :
    (s.setDirty d).v = s.v := rfl
@[simp] theorem State.setDirty_i (s : State) (d : Bool) :
    (s.setDirty d).i = s.i := rfl
@[simp] theorem State.setDirty_pc (s : State) (d : Bool) :
    (s.setDirty d).pc = s.pc := rfl
@[simp] theorem State.setDirty_sp (s : State) (d : Bool) :
    (s.setDirty d).sp = s.sp := rfl
@[simp] theorem State.setDirty_stack (s : State) (d : Bool) :
    (s.setDirty d).stack = s.stack := rfl
@[simp] theorem State.setDirty_dt (s : State) (d : Bool) :
    (s.setDirty d).dt = s.dt := rfl
@[simp] theorem State.setDirty_st (s : State) (d : Bool) :
    (s.setDirty d).st = s.st := rfl
@[simp] theorem State.setDirty_mem (s : State) (d : Bool) :
    (s.setDirty d).mem = s.mem := rfl
@[simp] theorem State.setDirty_fb (s : State) (d : Bool) :
    (s.setDirty d).fb = s.fb := rfl
@[simp] theorem State.setDirty_dirty (s : State) (d : Bool) :
    (s.setDirty d).dirty = d := rfl
@[simp] theorem State.setDirty_keys (s : State) (d : Bool) :
    (s.setDirty d).keys = s.keys := rfl
@[simp] theorem State.setDirty_kblock (s : State) (d : Bool) :
    (s.setDirty d).kblock = s.kblock := rfl
@[simp] theorem State.setDirty_lastKey (s : State) (d : Bool) :
    (s.setDirty d).lastKey = s.lastKey := rfl
@[simp] theorem State.setDirty_lastInsn (s : State) (d : Bool) :
    (s.setDirty d).lastInsn = s.lastInsn := rfl
@[simp] theorem State.setDirty_cfg (s : State) (d : Bool) :
    (s.setDirty d).cfg = s.cfg := rfl
@[simp] theorem State.setDirty_draws (s : State) (d : Bool) :
    (s.setDirty d).draws = s.draws := rfl
@[simp] theorem State.setDirty_script (s : State) (d : Bool) :
    (s.setDirty d).script = s.script := rfl
@[simp] theorem State.setDirty_ticks (s : State) (d : Bool) :
    (s.setDirty d).ticks = s.ticks := rfl
@[simp] theorem State.setDirty_result (s : State) (d : Bool) :
    (s.setDirty d).result = s.result := rfl

/-! ### setKey -/

@[simp] theorem State.setKey_v (s : State) (c : KeyCode) (p : Bool) :
    (s.setKey c p).v = s.v := rfl
@[simp] theorem State.setKey_i (s : State) (c : KeyCode) (p : Bool) :
    (s.setKey c p).i = s.i := rfl
@[simp] theorem State.setKey_pc (s : State) (c : KeyCode) (p : Bool) :
    (s.setKey c p).pc = s.pc := rfl
@[simp] theorem State.setKey_sp (s : State) (c : KeyCode) (p : Bool) :
    (s.setKey c p).sp = s.sp := rfl
@[simp] theorem State.setKey_stack (s : State) (c : KeyCode) (p : Bool) :
    (s.setKey c p).stack = s.stack := rfl
@[simp] theorem State.setKey_dt (s : State) (c : KeyCode) (p : Bool) :
    (s.setKey c p).dt = s.dt := rfl
@[simp] theorem State.setKey_st (s : State) (c : KeyCode) (p : Bool) :
    (s.setKey c p).st = s.st := rfl
@[simp] theorem State.setKey_mem (s : State) (c : KeyCode) (p : Bool) :
    (s.setKey c p).mem = s.mem := rfl
@[simp] theorem State.setKey_fb (s : State) (c : KeyCode) (p : Bool) :
    (s.setKey c p).fb = s.fb := rfl
@[simp] theorem State.setKey_dirty (s : State) (c : KeyCode) (p : Bool) :
    (s.setKey c p).dirty = s.dirty := rfl
@[simp] theorem State.setKey_keys (s : State) (c : KeyCode) (p : Bool) :
    (s.setKey c p).keys = s.keys.set c.val p := rfl
@[simp] theorem State.setKey_kblock (s : State) (c : KeyCode) (p : Bool) :
    (s.setKey c p).kblock = s.kblock := rfl
@[simp] theorem State.setKey_lastKey (s : State) (c : KeyCode) (p : Bool) :
    (s.setKey c p).lastKey = s.lastKey := rfl
@[simp] theorem State.setKey_lastInsn (s : State) (c : KeyCode) (p : Bool) :
    (s.setKey c p).lastInsn = s.lastInsn := rfl
@[simp] theorem State.setKey_cfg (s : State) (c : KeyCode) (p : Bool) :
    (s.setKey c p).cfg = s.cfg := rfl
@[simp] theorem State.setKey_draws (s : State) (c : KeyCode) (p : Bool) :
    (s.setKey c p).draws = s.draws := rfl
@[simp] theorem State.setKey_script (s : State) (c : KeyCode) (p : Bool) :
    (s.setKey c p).script = s.script := rfl
@[simp] theorem State.setKey_ticks (s : State) (c : KeyCode) (p : Bool) :
    (s.setKey c p).ticks = s.ticks := rfl
@[simp] theorem State.setKey_result (s : State) (c : KeyCode) (p : Bool) :
    (s.setKey c p).result = s.result := rfl

/-! ### setKblock -/

@[simp] theorem State.setKblock_v (s : State) (k : KeyBlock) :
    (s.setKblock k).v = s.v := rfl
@[simp] theorem State.setKblock_i (s : State) (k : KeyBlock) :
    (s.setKblock k).i = s.i := rfl
@[simp] theorem State.setKblock_pc (s : State) (k : KeyBlock) :
    (s.setKblock k).pc = s.pc := rfl
@[simp] theorem State.setKblock_sp (s : State) (k : KeyBlock) :
    (s.setKblock k).sp = s.sp := rfl
@[simp] theorem State.setKblock_stack (s : State) (k : KeyBlock) :
    (s.setKblock k).stack = s.stack := rfl
@[simp] theorem State.setKblock_dt (s : State) (k : KeyBlock) :
    (s.setKblock k).dt = s.dt := rfl
@[simp] theorem State.setKblock_st (s : State) (k : KeyBlock) :
    (s.setKblock k).st = s.st := rfl
@[simp] theorem State.setKblock_mem (s : State) (k : KeyBlock) :
    (s.setKblock k).mem = s.mem := rfl
@[simp] theorem State.setKblock_fb (s : State) (k : KeyBlock) :
    (s.setKblock k).fb = s.fb := rfl
@[simp] theorem State.setKblock_dirty (s : State) (k : KeyBlock) :
    (s.setKblock k).dirty = s.dirty := rfl
@[simp] theorem State.setKblock_keys (s : State) (k : KeyBlock) :
    (s.setKblock k).keys = s.keys := rfl
@[simp] theorem State.setKblock_kblock (s : State) (k : KeyBlock) :
    (s.setKblock k).kblock = k := rfl
@[simp] theorem State.setKblock_lastKey (s : State) (k : KeyBlock) :
    (s.setKblock k).lastKey = s.lastKey := rfl
@[simp] theorem State.setKblock_lastInsn (s : State) (k : KeyBlock) :
    (s.setKblock k).lastInsn = s.lastInsn := rfl
@[simp] theorem State.setKblock_cfg (s : State) (k : KeyBlock) :
    (s.setKblock k).cfg = s.cfg := rfl
@[simp] theorem State.setKblock_draws (s : State) (k : KeyBlock) :
    (s.setKblock k).draws = s.draws := rfl
@[simp] theorem State.setKblock_script (s : State) (k : KeyBlock) :
    (s.setKblock k).script = s.script := rfl
@[simp] theorem State.setKblock_ticks (s : State) (k : KeyBlock) :
    (s.setKblock k).ticks = s.ticks := rfl
@[simp] theorem State.setKblock_result (s : State) (k : KeyBlock) :
    (s.setKblock k).result = s.result := rfl

/-! ### setLastKey -/

@[simp] theorem State.setLastKey_v (s : State) (c : KeyCode) :
    (s.setLastKey c).v = s.v := rfl
@[simp] theorem State.setLastKey_i (s : State) (c : KeyCode) :
    (s.setLastKey c).i = s.i := rfl
@[simp] theorem State.setLastKey_pc (s : State) (c : KeyCode) :
    (s.setLastKey c).pc = s.pc := rfl
@[simp] theorem State.setLastKey_sp (s : State) (c : KeyCode) :
    (s.setLastKey c).sp = s.sp := rfl
@[simp] theorem State.setLastKey_stack (s : State) (c : KeyCode) :
    (s.setLastKey c).stack = s.stack := rfl
@[simp] theorem State.setLastKey_dt (s : State) (c : KeyCode) :
    (s.setLastKey c).dt = s.dt := rfl
@[simp] theorem State.setLastKey_st (s : State) (c : KeyCode) :
    (s.setLastKey c).st = s.st := rfl
@[simp] theorem State.setLastKey_mem (s : State) (c : KeyCode) :
    (s.setLastKey c).mem = s.mem := rfl
@[simp] theorem State.setLastKey_fb (s : State) (c : KeyCode) :
    (s.setLastKey c).fb = s.fb := rfl
@[simp] theorem State.setLastKey_dirty (s : State) (c : KeyCode) :
    (s.setLastKey c).dirty = s.dirty := rfl
@[simp] theorem State.setLastKey_keys (s : State) (c : KeyCode) :
    (s.setLastKey c).keys = s.keys := rfl
@[simp] theorem State.setLastKey_kblock (s : State) (c : KeyCode) :
    (s.setLastKey c).kblock = s.kblock := rfl
@[simp] theorem State.setLastKey_lastKey (s : State) (c : KeyCode) :
    (s.setLastKey c).lastKey = c := rfl
@[simp] theorem State.setLastKey_lastInsn (s : State) (c : KeyCode) :
    (s.setLastKey c).lastInsn = s.lastInsn := rfl
@[simp] theorem State.setLastKey_cfg (s : State) (c : KeyCode) :
    (s.setLastKey c).cfg = s.cfg := rfl
@[simp] theorem State.setLastKey_draws (s : State) (c : KeyCode) :
    (s.setLastKey c).draws = s.draws := rfl
@[simp] theorem State.setLastKey_script (s : State) (c : KeyCode) :
    (s.setLastKey c).script = s.script := rfl
@[simp] theorem State.setLastKey_ticks (s : State) (c : KeyCode) :
    (s.setLastKey c).ticks = s.ticks := rfl
@[simp] theorem State.setLastKey_result (s : State) (c : KeyCode) :
    (s.setLastKey c).result = s.result := rfl

/-! ### setStack -/

@[simp] theorem State.setStack_v (s : State) (j : Fin 16) (w : Word) :
    (s.setStack j w).v = s.v := rfl
@[simp] theorem State.setStack_i (s : State) (j : Fin 16) (w : Word) :
    (s.setStack j w).i = s.i := rfl
@[simp] theorem State.setStack_pc (s : State) (j : Fin 16) (w : Word) :
    (s.setStack j w).pc = s.pc := rfl
@[simp] theorem State.setStack_sp (s : State) (j : Fin 16) (w : Word) :
    (s.setStack j w).sp = s.sp := rfl
@[simp] theorem State.setStack_stack (s : State) (j : Fin 16) (w : Word) :
    (s.setStack j w).stack = s.stack.set j.val w := rfl
@[simp] theorem State.setStack_dt (s : State) (j : Fin 16) (w : Word) :
    (s.setStack j w).dt = s.dt := rfl
@[simp] theorem State.setStack_st (s : State) (j : Fin 16) (w : Word) :
    (s.setStack j w).st = s.st := rfl
@[simp] theorem State.setStack_mem (s : State) (j : Fin 16) (w : Word) :
    (s.setStack j w).mem = s.mem := rfl
@[simp] theorem State.setStack_fb (s : State) (j : Fin 16) (w : Word) :
    (s.setStack j w).fb = s.fb := rfl
@[simp] theorem State.setStack_dirty (s : State) (j : Fin 16) (w : Word) :
    (s.setStack j w).dirty = s.dirty := rfl
@[simp] theorem State.setStack_keys (s : State) (j : Fin 16) (w : Word) :
    (s.setStack j w).keys = s.keys := rfl
@[simp] theorem State.setStack_kblock (s : State) (j : Fin 16) (w : Word) :
    (s.setStack j w).kblock = s.kblock := rfl
@[simp] theorem State.setStack_lastKey (s : State) (j : Fin 16) (w : Word) :
    (s.setStack j w).lastKey = s.lastKey := rfl
@[simp] theorem State.setStack_lastInsn (s : State) (j : Fin 16) (w : Word) :
    (s.setStack j w).lastInsn = s.lastInsn := rfl
@[simp] theorem State.setStack_cfg (s : State) (j : Fin 16) (w : Word) :
    (s.setStack j w).cfg = s.cfg := rfl
@[simp] theorem State.setStack_draws (s : State) (j : Fin 16) (w : Word) :
    (s.setStack j w).draws = s.draws := rfl
@[simp] theorem State.setStack_script (s : State) (j : Fin 16) (w : Word) :
    (s.setStack j w).script = s.script := rfl
@[simp] theorem State.setStack_ticks (s : State) (j : Fin 16) (w : Word) :
    (s.setStack j w).ticks = s.ticks := rfl
@[simp] theorem State.setStack_result (s : State) (j : Fin 16) (w : Word) :
    (s.setStack j w).result = s.result := rfl

/-! ### setSp -/

@[simp] theorem State.setSp_v (s : State) (p : StackPointer) :
    (s.setSp p).v = s.v := rfl
@[simp] theorem State.setSp_i (s : State) (p : StackPointer) :
    (s.setSp p).i = s.i := rfl
@[simp] theorem State.setSp_pc (s : State) (p : StackPointer) :
    (s.setSp p).pc = s.pc := rfl
@[simp] theorem State.setSp_sp (s : State) (p : StackPointer) :
    (s.setSp p).sp = p := rfl
@[simp] theorem State.setSp_stack (s : State) (p : StackPointer) :
    (s.setSp p).stack = s.stack := rfl
@[simp] theorem State.setSp_dt (s : State) (p : StackPointer) :
    (s.setSp p).dt = s.dt := rfl
@[simp] theorem State.setSp_st (s : State) (p : StackPointer) :
    (s.setSp p).st = s.st := rfl
@[simp] theorem State.setSp_mem (s : State) (p : StackPointer) :
    (s.setSp p).mem = s.mem := rfl
@[simp] theorem State.setSp_fb (s : State) (p : StackPointer) :
    (s.setSp p).fb = s.fb := rfl
@[simp] theorem State.setSp_dirty (s : State) (p : StackPointer) :
    (s.setSp p).dirty = s.dirty := rfl
@[simp] theorem State.setSp_keys (s : State) (p : StackPointer) :
    (s.setSp p).keys = s.keys := rfl
@[simp] theorem State.setSp_kblock (s : State) (p : StackPointer) :
    (s.setSp p).kblock = s.kblock := rfl
@[simp] theorem State.setSp_lastKey (s : State) (p : StackPointer) :
    (s.setSp p).lastKey = s.lastKey := rfl
@[simp] theorem State.setSp_lastInsn (s : State) (p : StackPointer) :
    (s.setSp p).lastInsn = s.lastInsn := rfl
@[simp] theorem State.setSp_cfg (s : State) (p : StackPointer) :
    (s.setSp p).cfg = s.cfg := rfl
@[simp] theorem State.setSp_draws (s : State) (p : StackPointer) :
    (s.setSp p).draws = s.draws := rfl
@[simp] theorem State.setSp_script (s : State) (p : StackPointer) :
    (s.setSp p).script = s.script := rfl
@[simp] theorem State.setSp_ticks (s : State) (p : StackPointer) :
    (s.setSp p).ticks = s.ticks := rfl
@[simp] theorem State.setSp_result (s : State) (p : StackPointer) :
    (s.setSp p).result = s.result := rfl

/-! ### advanceDraws -/

@[simp] theorem State.advanceDraws_v (s : State) :
    (s.advanceDraws).v = s.v := rfl
@[simp] theorem State.advanceDraws_i (s : State) :
    (s.advanceDraws).i = s.i := rfl
@[simp] theorem State.advanceDraws_pc (s : State) :
    (s.advanceDraws).pc = s.pc := rfl
@[simp] theorem State.advanceDraws_sp (s : State) :
    (s.advanceDraws).sp = s.sp := rfl
@[simp] theorem State.advanceDraws_stack (s : State) :
    (s.advanceDraws).stack = s.stack := rfl
@[simp] theorem State.advanceDraws_dt (s : State) :
    (s.advanceDraws).dt = s.dt := rfl
@[simp] theorem State.advanceDraws_st (s : State) :
    (s.advanceDraws).st = s.st := rfl
@[simp] theorem State.advanceDraws_mem (s : State) :
    (s.advanceDraws).mem = s.mem := rfl
@[simp] theorem State.advanceDraws_fb (s : State) :
    (s.advanceDraws).fb = s.fb := rfl
@[simp] theorem State.advanceDraws_dirty (s : State) :
    (s.advanceDraws).dirty = s.dirty := rfl
@[simp] theorem State.advanceDraws_keys (s : State) :
    (s.advanceDraws).keys = s.keys := rfl
@[simp] theorem State.advanceDraws_kblock (s : State) :
    (s.advanceDraws).kblock = s.kblock := rfl
@[simp] theorem State.advanceDraws_lastKey (s : State) :
    (s.advanceDraws).lastKey = s.lastKey := rfl
@[simp] theorem State.advanceDraws_lastInsn (s : State) :
    (s.advanceDraws).lastInsn = s.lastInsn := rfl
@[simp] theorem State.advanceDraws_cfg (s : State) :
    (s.advanceDraws).cfg = s.cfg := rfl
@[simp] theorem State.advanceDraws_draws (s : State) :
    (s.advanceDraws).draws = s.draws + 1 := rfl
@[simp] theorem State.advanceDraws_script (s : State) :
    (s.advanceDraws).script = s.script := rfl
@[simp] theorem State.advanceDraws_ticks (s : State) :
    (s.advanceDraws).ticks = s.ticks := rfl
@[simp] theorem State.advanceDraws_result (s : State) :
    (s.advanceDraws).result = s.result := rfl

/-! ### setResult -/

@[simp] theorem State.setResult_v (s : State) (r : TickResult) :
    (s.setResult r).v = s.v := rfl
@[simp] theorem State.setResult_i (s : State) (r : TickResult) :
    (s.setResult r).i = s.i := rfl
@[simp] theorem State.setResult_pc (s : State) (r : TickResult) :
    (s.setResult r).pc = s.pc := rfl
@[simp] theorem State.setResult_sp (s : State) (r : TickResult) :
    (s.setResult r).sp = s.sp := rfl
@[simp] theorem State.setResult_stack (s : State) (r : TickResult) :
    (s.setResult r).stack = s.stack := rfl
@[simp] theorem State.setResult_dt (s : State) (r : TickResult) :
    (s.setResult r).dt = s.dt := rfl
@[simp] theorem State.setResult_st (s : State) (r : TickResult) :
    (s.setResult r).st = s.st := rfl
@[simp] theorem State.setResult_mem (s : State) (r : TickResult) :
    (s.setResult r).mem = s.mem := rfl
@[simp] theorem State.setResult_fb (s : State) (r : TickResult) :
    (s.setResult r).fb = s.fb := rfl
@[simp] theorem State.setResult_dirty (s : State) (r : TickResult) :
    (s.setResult r).dirty = s.dirty := rfl
@[simp] theorem State.setResult_keys (s : State) (r : TickResult) :
    (s.setResult r).keys = s.keys := rfl
@[simp] theorem State.setResult_kblock (s : State) (r : TickResult) :
    (s.setResult r).kblock = s.kblock := rfl
@[simp] theorem State.setResult_lastKey (s : State) (r : TickResult) :
    (s.setResult r).lastKey = s.lastKey := rfl
@[simp] theorem State.setResult_lastInsn (s : State) (r : TickResult) :
    (s.setResult r).lastInsn = s.lastInsn := rfl
@[simp] theorem State.setResult_cfg (s : State) (r : TickResult) :
    (s.setResult r).cfg = s.cfg := rfl
@[simp] theorem State.setResult_draws (s : State) (r : TickResult) :
    (s.setResult r).draws = s.draws := rfl
@[simp] theorem State.setResult_script (s : State) (r : TickResult) :
    (s.setResult r).script = s.script := rfl
@[simp] theorem State.setResult_ticks (s : State) (r : TickResult) :
    (s.setResult r).ticks = s.ticks := rfl
@[simp] theorem State.setResult_result (s : State) (r : TickResult) :
    (s.setResult r).result = r := rfl

/-! ### setScript -/

@[simp] theorem State.setScript_v (s : State) (ops : List (Nat × HostOp)) :
    (s.setScript ops).v = s.v := rfl
@[simp] theorem State.setScript_i (s : State) (ops : List (Nat × HostOp)) :
    (s.setScript ops).i = s.i := rfl
@[simp] theorem State.setScript_pc (s : State) (ops : List (Nat × HostOp)) :
    (s.setScript ops).pc = s.pc := rfl
@[simp] theorem State.setScript_sp (s : State) (ops : List (Nat × HostOp)) :
    (s.setScript ops).sp = s.sp := rfl
@[simp] theorem State.setScript_stack (s : State) (ops : List (Nat × HostOp)) :
    (s.setScript ops).stack = s.stack := rfl
@[simp] theorem State.setScript_dt (s : State) (ops : List (Nat × HostOp)) :
    (s.setScript ops).dt = s.dt := rfl
@[simp] theorem State.setScript_st (s : State) (ops : List (Nat × HostOp)) :
    (s.setScript ops).st = s.st := rfl
@[simp] theorem State.setScript_mem (s : State) (ops : List (Nat × HostOp)) :
    (s.setScript ops).mem = s.mem := rfl
@[simp] theorem State.setScript_fb (s : State) (ops : List (Nat × HostOp)) :
    (s.setScript ops).fb = s.fb := rfl
@[simp] theorem State.setScript_dirty (s : State) (ops : List (Nat × HostOp)) :
    (s.setScript ops).dirty = s.dirty := rfl
@[simp] theorem State.setScript_keys (s : State) (ops : List (Nat × HostOp)) :
    (s.setScript ops).keys = s.keys := rfl
@[simp] theorem State.setScript_kblock (s : State) (ops : List (Nat × HostOp)) :
    (s.setScript ops).kblock = s.kblock := rfl
@[simp] theorem State.setScript_lastKey (s : State) (ops : List (Nat × HostOp)) :
    (s.setScript ops).lastKey = s.lastKey := rfl
@[simp] theorem State.setScript_lastInsn (s : State) (ops : List (Nat × HostOp)) :
    (s.setScript ops).lastInsn = s.lastInsn := rfl
@[simp] theorem State.setScript_cfg (s : State) (ops : List (Nat × HostOp)) :
    (s.setScript ops).cfg = s.cfg := rfl
@[simp] theorem State.setScript_draws (s : State) (ops : List (Nat × HostOp)) :
    (s.setScript ops).draws = s.draws := rfl
@[simp] theorem State.setScript_script (s : State) (ops : List (Nat × HostOp)) :
    (s.setScript ops).script = ops := rfl
@[simp] theorem State.setScript_ticks (s : State) (ops : List (Nat × HostOp)) :
    (s.setScript ops).ticks = s.ticks := rfl
@[simp] theorem State.setScript_result (s : State) (ops : List (Nat × HostOp)) :
    (s.setScript ops).result = s.result := rfl

/-! ### stepTimers -/

@[simp] theorem State.stepTimers_v (s : State) :
    (s.stepTimers).v = s.v := rfl
@[simp] theorem State.stepTimers_i (s : State) :
    (s.stepTimers).i = s.i := rfl
@[simp] theorem State.stepTimers_pc (s : State) :
    (s.stepTimers).pc = s.pc := rfl
@[simp] theorem State.stepTimers_sp (s : State) :
    (s.stepTimers).sp = s.sp := rfl
@[simp] theorem State.stepTimers_stack (s : State) :
    (s.stepTimers).stack = s.stack := rfl
@[simp] theorem State.stepTimers_dt (s : State) :
    (s.stepTimers).dt = countDown s.dt := rfl
@[simp] theorem State.stepTimers_st (s : State) :
    (s.stepTimers).st = countDown s.st := rfl
@[simp] theorem State.stepTimers_mem (s : State) :
    (s.stepTimers).mem = s.mem := rfl
@[simp] theorem State.stepTimers_fb (s : State) :
    (s.stepTimers).fb = s.fb := rfl
@[simp] theorem State.stepTimers_dirty (s : State) :
    (s.stepTimers).dirty = s.dirty := rfl
@[simp] theorem State.stepTimers_keys (s : State) :
    (s.stepTimers).keys = s.keys := rfl
@[simp] theorem State.stepTimers_kblock (s : State) :
    (s.stepTimers).kblock = s.kblock := rfl
@[simp] theorem State.stepTimers_lastKey (s : State) :
    (s.stepTimers).lastKey = s.lastKey := rfl
@[simp] theorem State.stepTimers_lastInsn (s : State) :
    (s.stepTimers).lastInsn = s.lastInsn := rfl
@[simp] theorem State.stepTimers_cfg (s : State) :
    (s.stepTimers).cfg = s.cfg := rfl
@[simp] theorem State.stepTimers_draws (s : State) :
    (s.stepTimers).draws = s.draws := rfl
@[simp] theorem State.stepTimers_script (s : State) :
    (s.stepTimers).script = s.script := rfl
@[simp] theorem State.stepTimers_ticks (s : State) :
    (s.stepTimers).ticks = s.ticks := rfl
@[simp] theorem State.stepTimers_result (s : State) :
    (s.stepTimers).result = s.result := rfl

/-! ### advance -/

@[simp] theorem State.advance_v (s : State) (op : Word) :
    (s.advance op).v = s.v := rfl
@[simp] theorem State.advance_i (s : State) (op : Word) :
    (s.advance op).i = s.i := rfl
@[simp] theorem State.advance_pc (s : State) (op : Word) :
    (s.advance op).pc = s.pc + 2#16 := rfl
@[simp] theorem State.advance_sp (s : State) (op : Word) :
    (s.advance op).sp = s.sp := rfl
@[simp] theorem State.advance_stack (s : State) (op : Word) :
    (s.advance op).stack = s.stack := rfl
@[simp] theorem State.advance_dt (s : State) (op : Word) :
    (s.advance op).dt = s.dt := rfl
@[simp] theorem State.advance_st (s : State) (op : Word) :
    (s.advance op).st = s.st := rfl
@[simp] theorem State.advance_mem (s : State) (op : Word) :
    (s.advance op).mem = s.mem := rfl
@[simp] theorem State.advance_fb (s : State) (op : Word) :
    (s.advance op).fb = s.fb := rfl
@[simp] theorem State.advance_dirty (s : State) (op : Word) :
    (s.advance op).dirty = s.dirty := rfl
@[simp] theorem State.advance_keys (s : State) (op : Word) :
    (s.advance op).keys = s.keys := rfl
@[simp] theorem State.advance_kblock (s : State) (op : Word) :
    (s.advance op).kblock = s.kblock := rfl
@[simp] theorem State.advance_lastKey (s : State) (op : Word) :
    (s.advance op).lastKey = s.lastKey := rfl
@[simp] theorem State.advance_lastInsn (s : State) (op : Word) :
    (s.advance op).lastInsn = op := rfl
@[simp] theorem State.advance_cfg (s : State) (op : Word) :
    (s.advance op).cfg = s.cfg := rfl
@[simp] theorem State.advance_draws (s : State) (op : Word) :
    (s.advance op).draws = s.draws := rfl
@[simp] theorem State.advance_script (s : State) (op : Word) :
    (s.advance op).script = s.script := rfl
@[simp] theorem State.advance_ticks (s : State) (op : Word) :
    (s.advance op).ticks = s.ticks + 1 := rfl
@[simp] theorem State.advance_result (s : State) (op : Word) :
    (s.advance op).result = .ok := rfl

/-! ### rewind -/

@[simp] theorem State.rewind_v (s : State) :
    (s.rewind).v = s.v := rfl
@[simp] theorem State.rewind_i (s : State) :
    (s.rewind).i = s.i := rfl
@[simp] theorem State.rewind_pc (s : State) :
    (s.rewind).pc = s.pc - 2#16 := rfl
@[simp] theorem State.rewind_sp (s : State) :
    (s.rewind).sp = s.sp := rfl
@[simp] theorem State.rewind_stack (s : State) :
    (s.rewind).stack = s.stack := rfl
@[simp] theorem State.rewind_dt (s : State) :
    (s.rewind).dt = s.dt := rfl
@[simp] theorem State.rewind_st (s : State) :
    (s.rewind).st = s.st := rfl
@[simp] theorem State.rewind_mem (s : State) :
    (s.rewind).mem = s.mem := rfl
@[simp] theorem State.rewind_fb (s : State) :
    (s.rewind).fb = s.fb := rfl
@[simp] theorem State.rewind_dirty (s : State) :
    (s.rewind).dirty = s.dirty := rfl
@[simp] theorem State.rewind_keys (s : State) :
    (s.rewind).keys = s.keys := rfl
@[simp] theorem State.rewind_kblock (s : State) :
    (s.rewind).kblock = s.kblock := rfl
@[simp] theorem State.rewind_lastKey (s : State) :
    (s.rewind).lastKey = s.lastKey := rfl
@[simp] theorem State.rewind_lastInsn (s : State) :
    (s.rewind).lastInsn = s.lastInsn := rfl
@[simp] theorem State.rewind_cfg (s : State) :
    (s.rewind).cfg = s.cfg := rfl
@[simp] theorem State.rewind_draws (s : State) :
    (s.rewind).draws = s.draws := rfl
@[simp] theorem State.rewind_script (s : State) :
    (s.rewind).script = s.script := rfl
@[simp] theorem State.rewind_ticks (s : State) :
    (s.rewind).ticks = s.ticks := rfl
@[simp] theorem State.rewind_result (s : State) :
    (s.rewind).result = s.result := rfl

/-! ### Indexed readings -/

@[simp] theorem State.getV_setI (s : State) (w : Word) (q : Reg) :
    (s.setI w).getV q = s.getV q := rfl
@[simp] theorem State.getV_setPc (s : State) (w : Word) (q : Reg) :
    (s.setPc w).getV q = s.getV q := rfl
@[simp] theorem State.getV_setDt (s : State) (b : Byte) (q : Reg) :
    (s.setDt b).getV q = s.getV q := rfl
@[simp] theorem State.getV_setSt (s : State) (b : Byte) (q : Reg) :
    (s.setSt b).getV q = s.getV q := rfl
@[simp] theorem State.getV_setMem (s : State) (m : Memory) (q : Reg) :
    (s.setMem m).getV q = s.getV q := rfl
@[simp] theorem State.getV_setFb (s : State) (k : Nat) (b : Byte) (q : Reg) :
    (s.setFb k b).getV q = s.getV q := rfl
@[simp] theorem State.getV_clearFb (s : State) (q : Reg) :
    (s.clearFb).getV q = s.getV q := rfl
@[simp] theorem State.getV_setDirty (s : State) (d : Bool) (q : Reg) :
    (s.setDirty d).getV q = s.getV q := rfl
@[simp] theorem State.getV_setKey (s : State) (c : KeyCode) (p : Bool) (q : Reg) :
    (s.setKey c p).getV q = s.getV q := rfl
@[simp] theorem State.getV_setKblock (s : State) (k : KeyBlock) (q : Reg) :
    (s.setKblock k).getV q = s.getV q := rfl
@[simp] theorem State.getV_setLastKey (s : State) (c : KeyCode) (q : Reg) :
    (s.setLastKey c).getV q = s.getV q := rfl
@[simp] theorem State.getV_setStack (s : State) (j : Fin 16) (w : Word) (q : Reg) :
    (s.setStack j w).getV q = s.getV q := rfl
@[simp] theorem State.getV_setSp (s : State) (p : StackPointer) (q : Reg) :
    (s.setSp p).getV q = s.getV q := rfl
@[simp] theorem State.getV_advanceDraws (s : State) (q : Reg) :
    (s.advanceDraws).getV q = s.getV q := rfl
@[simp] theorem State.getV_setResult (s : State) (r : TickResult) (q : Reg) :
    (s.setResult r).getV q = s.getV q := rfl
@[simp] theorem State.getV_setScript (s : State) (ops : List (Nat × HostOp)) (q : Reg) :
    (s.setScript ops).getV q = s.getV q := rfl
@[simp] theorem State.getV_stepTimers (s : State) (q : Reg) :
    (s.stepTimers).getV q = s.getV q := rfl
@[simp] theorem State.getV_advance (s : State) (op : Word) (q : Reg) :
    (s.advance op).getV q = s.getV q := rfl
@[simp] theorem State.getV_rewind (s : State) (q : Reg) :
    (s.rewind).getV q = s.getV q := rfl

@[simp] theorem State.getStack_setV (s : State) (x : Reg) (b : Byte) (j' : Fin 16) :
    (s.setV x b).getStack j' = s.getStack j' := rfl
@[simp] theorem State.getStack_setI (s : State) (w : Word) (j' : Fin 16) :
    (s.setI w).getStack j' = s.getStack j' := rfl
@[simp] theorem State.getStack_setPc (s : State) (w : Word) (j' : Fin 16) :
    (s.setPc w).getStack j' = s.getStack j' := rfl
@[simp] theorem State.getStack_setDt (s : State) (b : Byte) (j' : Fin 16) :
    (s.setDt b).getStack j' = s.getStack j' := rfl
@[simp] theorem State.getStack_setSt (s : State) (b : Byte) (j' : Fin 16) :
    (s.setSt b).getStack j' = s.getStack j' := rfl
@[simp] theorem State.getStack_setMem (s : State) (m : Memory) (j' : Fin 16) :
    (s.setMem m).getStack j' = s.getStack j' := rfl
@[simp] theorem State.getStack_setFb (s : State) (k : Nat) (b : Byte) (j' : Fin 16) :
    (s.setFb k b).getStack j' = s.getStack j' := rfl
@[simp] theorem State.getStack_clearFb (s : State) (j' : Fin 16) :
    (s.clearFb).getStack j' = s.getStack j' := rfl
@[simp] theorem State.getStack_setDirty (s : State) (d : Bool) (j' : Fin 16) :
    (s.setDirty d).getStack j' = s.getStack j' := rfl
@[simp] theorem State.getStack_setKey (s : State) (c : KeyCode) (p : Bool) (j' : Fin 16) :
    (s.setKey c p).getStack j' = s.getStack j' := rfl
@[simp] theorem State.getStack_setKblock (s : State) (k : KeyBlock) (j' : Fin 16) :
    (s.setKblock k).getStack j' = s.getStack j' := rfl
@[simp] theorem State.getStack_setLastKey (s : State) (c : KeyCode) (j' : Fin 16) :
    (s.setLastKey c).getStack j' = s.getStack j' := rfl
@[simp] theorem State.getStack_setSp (s : State) (p : StackPointer) (j' : Fin 16) :
    (s.setSp p).getStack j' = s.getStack j' := rfl
@[simp] theorem State.getStack_advanceDraws (s : State) (j' : Fin 16) :
    (s.advanceDraws).getStack j' = s.getStack j' := rfl
@[simp] theorem State.getStack_setResult (s : State) (r : TickResult) (j' : Fin 16) :
    (s.setResult r).getStack j' = s.getStack j' := rfl
@[simp] theorem State.getStack_setScript (s : State) (ops : List (Nat × HostOp)) (j' : Fin 16) :
    (s.setScript ops).getStack j' = s.getStack j' := rfl
@[simp] theorem State.getStack_stepTimers (s : State) (j' : Fin 16) :
    (s.stepTimers).getStack j' = s.getStack j' := rfl
@[simp] theorem State.getStack_advance (s : State) (op : Word) (j' : Fin 16) :
    (s.advance op).getStack j' = s.getStack j' := rfl
@[simp] theorem State.getStack_rewind (s : State) (j' : Fin 16) :
    (s.rewind).getStack j' = s.getStack j' := rfl

@[simp] theorem State.getKey_setV (s : State) (x : Reg) (b : Byte) (c' : KeyCode) :
    (s.setV x b).getKey c' = s.getKey c' := rfl
@[simp] theorem State.getKey_setI (s : State) (w : Word) (c' : KeyCode) :
    (s.setI w).getKey c' = s.getKey c' := rfl
@[simp] theorem State.getKey_setPc (s : State) (w : Word) (c' : KeyCode) :
    (s.setPc w).getKey c' = s.getKey c' := rfl
@[simp] theorem State.getKey_setDt (s : State) (b : Byte) (c' : KeyCode) :
    (s.setDt b).getKey c' = s.getKey c' := rfl
@[simp] theorem State.getKey_setSt (s : State) (b : Byte) (c' : KeyCode) :
    (s.setSt b).getKey c' = s.getKey c' := rfl
@[simp] theorem State.getKey_setMem (s : State) (m : Memory) (c' : KeyCode) :
    (s.setMem m).getKey c' = s.getKey c' := rfl
@[simp] theorem State.getKey_setFb (s : State) (k : Nat) (b : Byte) (c' : KeyCode) :
    (s.setFb k b).getKey c' = s.getKey c' := rfl
@[simp] theorem State.getKey_clearFb (s : State) (c' : KeyCode) :
    (s.clearFb).getKey c' = s.getKey c' := rfl
@[simp] theorem State.getKey_setDirty (s : State) (d : Bool) (c' : KeyCode) :
    (s.setDirty d).getKey c' = s.getKey c' := rfl
@[simp] theorem State.getKey_setKblock (s : State) (k : KeyBlock) (c' : KeyCode) :
    (s.setKblock k).getKey c' = s.getKey c' := rfl
@[simp] theorem State.getKey_setLastKey (s : State) (c : KeyCode) (c' : KeyCode) :
    (s.setLastKey c).getKey c' = s.getKey c' := rfl
@[simp] theorem State.getKey_setStack (s : State) (j : Fin 16) (w : Word) (c' : KeyCode) :
    (s.setStack j w).getKey c' = s.getKey c' := rfl
@[simp] theorem State.getKey_setSp (s : State) (p : StackPointer) (c' : KeyCode) :
    (s.setSp p).getKey c' = s.getKey c' := rfl
@[simp] theorem State.getKey_advanceDraws (s : State) (c' : KeyCode) :
    (s.advanceDraws).getKey c' = s.getKey c' := rfl
@[simp] theorem State.getKey_setResult (s : State) (r : TickResult) (c' : KeyCode) :
    (s.setResult r).getKey c' = s.getKey c' := rfl
@[simp] theorem State.getKey_setScript (s : State) (ops : List (Nat × HostOp)) (c' : KeyCode) :
    (s.setScript ops).getKey c' = s.getKey c' := rfl
@[simp] theorem State.getKey_stepTimers (s : State) (c' : KeyCode) :
    (s.stepTimers).getKey c' = s.getKey c' := rfl
@[simp] theorem State.getKey_advance (s : State) (op : Word) (c' : KeyCode) :
    (s.advance op).getKey c' = s.getKey c' := rfl
@[simp] theorem State.getKey_rewind (s : State) (c' : KeyCode) :
    (s.rewind).getKey c' = s.getKey c' := rfl

@[simp] theorem State.getFb_setV (s : State) (x : Reg) (b : Byte) (k' : Nat) :
    (s.setV x b).getFb k' = s.getFb k' := rfl
@[simp] theorem State.getFb_setI (s : State) (w : Word) (k' : Nat) :
    (s.setI w).getFb k' = s.getFb k' := rfl
@[simp] theorem State.getFb_setPc (s : State) (w : Word) (k' : Nat) :
    (s.setPc w).getFb k' = s.getFb k' := rfl
@[simp] theorem State.getFb_setDt (s : State) (b : Byte) (k' : Nat) :
    (s.setDt b).getFb k' = s.getFb k' := rfl
@[simp] theorem State.getFb_setSt (s : State) (b : Byte) (k' : Nat) :
    (s.setSt b).getFb k' = s.getFb k' := rfl
@[simp] theorem State.getFb_setMem (s : State) (m : Memory) (k' : Nat) :
    (s.setMem m).getFb k' = s.getFb k' := rfl
@[simp] theorem State.getFb_setDirty (s : State) (d : Bool) (k' : Nat) :
    (s.setDirty d).getFb k' = s.getFb k' := rfl
@[simp] theorem State.getFb_setKey (s : State) (c : KeyCode) (p : Bool) (k' : Nat) :
    (s.setKey c p).getFb k' = s.getFb k' := rfl
@[simp] theorem State.getFb_setKblock (s : State) (k : KeyBlock) (k' : Nat) :
    (s.setKblock k).getFb k' = s.getFb k' := rfl
@[simp] theorem State.getFb_setLastKey (s : State) (c : KeyCode) (k' : Nat) :
    (s.setLastKey c).getFb k' = s.getFb k' := rfl
@[simp] theorem State.getFb_setStack (s : State) (j : Fin 16) (w : Word) (k' : Nat) :
    (s.setStack j w).getFb k' = s.getFb k' := rfl
@[simp] theorem State.getFb_setSp (s : State) (p : StackPointer) (k' : Nat) :
    (s.setSp p).getFb k' = s.getFb k' := rfl
@[simp] theorem State.getFb_advanceDraws (s : State) (k' : Nat) :
    (s.advanceDraws).getFb k' = s.getFb k' := rfl
@[simp] theorem State.getFb_setResult (s : State) (r : TickResult) (k' : Nat) :
    (s.setResult r).getFb k' = s.getFb k' := rfl
@[simp] theorem State.getFb_setScript (s : State) (ops : List (Nat × HostOp)) (k' : Nat) :
    (s.setScript ops).getFb k' = s.getFb k' := rfl
@[simp] theorem State.getFb_stepTimers (s : State) (k' : Nat) :
    (s.stepTimers).getFb k' = s.getFb k' := rfl
@[simp] theorem State.getFb_advance (s : State) (op : Word) (k' : Nat) :
    (s.advance op).getFb k' = s.getFb k' := rfl
@[simp] theorem State.getFb_rewind (s : State) (k' : Nat) :
    (s.rewind).getFb k' = s.getFb k' := rfl

/-- A register after a register write (R12, R16). -/
@[simp] theorem State.getV_setV (s : State) (x r : Reg) (b : Byte) :
    (s.setV x b).getV r = if r = x then b else s.getV r := by
  simp only [State.getV, State.setV, Vector.getElem_set, Fin.ext_iff]
  split <;> split <;> simp_all

/-- A stack slot after a slot write. -/
@[simp] theorem State.getStack_setStack (s : State) (j k : Fin 16) (w : Word) :
    (s.setStack j w).getStack k = if k = j then w else s.getStack k := by
  simp only [State.getStack, State.setStack, Vector.getElem_set, Fin.ext_iff]
  split <;> split <;> simp_all

/-- A key after a key write. -/
@[simp] theorem State.getKey_setKey (s : State) (c d : KeyCode) (p : Bool) :
    (s.setKey c p).getKey d = if d = c then p else s.getKey d := by
  simp only [State.getKey, State.setKey, Vector.getElem_set, Fin.ext_iff]
  split <;> split <;> simp_all

/-- Every cell is off after a clear (R114). -/
@[simp] theorem State.getFb_clearFb (s : State) (k : Nat) : s.clearFb.getFb k = 0#8 := rfl

/-- The memory address of an offset depends on I alone (R11). -/
theorem State.indexed_eq (s : State) (k : Nat) : s.indexed k = s.i.toNat + k := rfl

/-- Two states with the same fields, registers and slots and keys index by index, are the same. -/
theorem State.eq_of_readings {s t : State} (hv : ∀ r, t.getV r = s.getV r)
    (hst : ∀ j, t.getStack j = s.getStack j) (hk : ∀ c, t.getKey c = s.getKey c)
    (h : { t with v := s.v, stack := s.stack, keys := s.keys } = s) : t = s := by
  have e1 : t.v = s.v := Vector.ext fun n hn => hv ⟨n, hn⟩
  have e2 : t.stack = s.stack := Vector.ext fun n hn => hst ⟨n, hn⟩
  have e3 : t.keys = s.keys := Vector.ext fun n hn => hk ⟨n, hn⟩
  rw [← h, ← e1, ← e2, ← e3]

end Sys2Proof.Machine
end

