-- ==== Sys2Proof/Laws/Memory.lean ====
section
/-! SUPPORT. The cell array of memory and framebuffer: reading after writing, the canonical form kept by
every operation, and equality of arrays that read alike (spec/20_memory.md R38, R40, R48). -/

namespace Sys2Proof.Machine

theorem Memory.wfFrom_cons {size lo a : Nat} {b : Byte} {m : Memory} :
    Memory.wfFrom size lo ((a, b) :: m) = true ↔
      lo ≤ a ∧ a < size ∧ b ≠ 0#8 ∧ Memory.wfFrom size (a + 1) m = true := by
  simp [Memory.wfFrom, and_assoc]

theorem Memory.wfFrom_mono {size lo lo' : Nat} (h : lo' ≤ lo) {m : Memory}
    (hm : Memory.wfFrom size lo m = true) : Memory.wfFrom size lo' m = true := by
  cases m with
  | nil => rfl
  | cons c m =>
    rw [Memory.wfFrom_cons] at hm ⊢
    exact ⟨h.trans hm.1, hm.2⟩

/-- Below the first listed address every cell reads 0. -/
theorem Memory.read_below {size lo k : Nat} {m : Memory} (hm : Memory.wfFrom size lo m = true)
    (hk : k < lo) : Memory.read m k = 0#8 := by
  induction m generalizing lo with
  | nil => rfl
  | cons c m ih =>
    rw [Memory.wfFrom_cons] at hm
    have hne : c.1 ≠ k := by omega
    simpa [Memory.read, hne] using ih hm.2.2.2 (by omega)

/-- A cell at or above the size of the array reads 0. -/
theorem Memory.read_above {size lo k : Nat} {m : Memory} (hm : Memory.wfFrom size lo m = true)
    (hk : size ≤ k) : Memory.read m k = 0#8 := by
  induction m generalizing lo with
  | nil => rfl
  | cons c m ih =>
    rw [Memory.wfFrom_cons] at hm
    have hne : c.1 ≠ k := by omega
    simpa [Memory.read, hne] using ih hm.2.2.2

theorem Memory.read_cons {k j : Nat} {v : Byte} {m : Memory} (h : Memory.read m k = 0#8) :
    Memory.read (Memory.cons k v m) j = if j = k then v else Memory.read m j := by
  unfold Memory.cons
  by_cases hj : j = k
  · subst hj
    split <;> simp_all [Memory.read]
  · split <;> simp [Memory.read, Ne.symm hj]

theorem Memory.wfFrom_consCell {size lo k : Nat} {v : Byte} {m : Memory} (hlo : lo ≤ k) (hk : k < size)
    (hm : Memory.wfFrom size (k + 1) m = true) : Memory.wfFrom size lo (Memory.cons k v m) = true := by
  unfold Memory.cons
  split
  · exact Memory.wfFrom_mono (by omega) hm
  · rw [Memory.wfFrom_cons]
    exact ⟨hlo, hk, ‹_›, hm⟩

/-- A read after a write gives the value written there and leaves every other cell alone (R48). -/
theorem Memory.read_write {size lo : Nat} {m : Memory} (hm : Memory.wfFrom size lo m = true)
    (k j : Nat) (v : Byte) :
    Memory.read (Memory.write m k v) j = if j = k then v else Memory.read m j := by
  induction m generalizing lo with
  | nil => exact Memory.read_cons rfl
  | cons c m ih =>
    have hm' := hm
    rw [Memory.wfFrom_cons] at hm'
    obtain ⟨h1, h2, h3, h4⟩ := hm'
    unfold Memory.write
    split
    · refine Memory.read_cons (Memory.read_below (size := size) (lo := c.1) ?_ ‹_›)
      rw [Memory.wfFrom_cons]
      exact ⟨le_refl _, h2, h3, h4⟩
    · split
      · rename_i hlt heq
        rw [Memory.read_cons (Memory.read_below h4 (by omega))]
        by_cases hj : j = k
        · simp [hj]
        · simp [hj, Memory.read, show c.1 ≠ j by omega]
      · rename_i hlt hne
        by_cases hj : c.1 = j
        · simp [Memory.read, hj, show ¬ j = k by omega]
        · simp [Memory.read, hj, ih h4]

/-- A write inside the array keeps its canonical form. -/
theorem Memory.wfFrom_write {size lo k : Nat} {m : Memory} {v : Byte}
    (hm : Memory.wfFrom size lo m = true) (hlo : lo ≤ k) (hk : k < size) :
    Memory.wfFrom size lo (Memory.write m k v) = true := by
  induction m generalizing lo with
  | nil => exact Memory.wfFrom_consCell hlo hk rfl
  | cons c m ih =>
    rw [Memory.wfFrom_cons] at hm
    obtain ⟨h1, h2, h3, h4⟩ := hm
    unfold Memory.write
    split
    · refine Memory.wfFrom_consCell hlo hk ?_
      rw [Memory.wfFrom_cons]
      exact ⟨by omega, h2, h3, h4⟩
    · split
      · exact Memory.wfFrom_consCell hlo hk (by rename_i h; subst h; exact h4)
      · rw [Memory.wfFrom_cons]
        exact ⟨h1, h2, h3, ih h4 (by omega)⟩

/-- Arrays in canonical form that read alike are equal data. -/
theorem Memory.eq_of_read {size lo : Nat} {m m' : Memory} (hm : Memory.wfFrom size lo m = true)
    (hm' : Memory.wfFrom size lo m' = true) (h : ∀ k, Memory.read m k = Memory.read m' k) : m = m' := by
  induction m generalizing lo m' with
  | nil =>
    cases m' with
    | nil => rfl
    | cons c m' =>
      rw [Memory.wfFrom_cons] at hm'
      exact absurd (h c.1).symm (by simpa [Memory.read] using hm'.2.2.1)
  | cons c m ih =>
    have hc := hm
    rw [Memory.wfFrom_cons] at hc
    cases m' with
    | nil => exact absurd (h c.1) (by simpa [Memory.read] using hc.2.2.1)
    | cons d m' =>
      have hd := hm'
      rw [Memory.wfFrom_cons] at hd
      have hcd : c.1 = d.1 := by
        rcases Nat.lt_trichotomy c.1 d.1 with hlt | heq | hlt
        · have := h c.1
          rw [Memory.read_below (lo := d.1) (m := d :: m') (size := size)
            (Memory.wfFrom_cons.2 ⟨le_refl _, hd.2⟩) hlt] at this
          exact absurd this (by simpa [Memory.read] using hc.2.2.1)
        · exact heq
        · have := h d.1
          rw [Memory.read_below (lo := c.1) (m := c :: m) (size := size)
            (Memory.wfFrom_cons.2 ⟨le_refl _, hc.2⟩) hlt] at this
          exact absurd this.symm (by simpa [Memory.read] using hd.2.2.1)
      have hval : c.2 = d.2 := by simpa [Memory.read, hcd] using h c.1
      have htail : m = m' := by
        refine ih hc.2.2.2 (hcd ▸ hd.2.2.2) fun k => ?_
        by_cases hk : k = c.1
        · rw [hk, Memory.read_below hc.2.2.2 (by omega), Memory.read_below hd.2.2.2 (by omega)]
        · simpa [Memory.read, Ne.symm hk, show ¬ d.1 = k by omega] using h k
      rw [htail, Prod.ext hcd hval]

/-- The bytes of an image stand at consecutive addresses, every other cell as before (R137). -/
theorem Memory.read_writeAll {size : Nat} {m : Memory} (hm : Memory.wfFrom size 0 m = true) (a : Nat)
    (bs : List Byte) (h : a + bs.length ≤ size) (k : Nat) :
    Memory.read (Memory.writeAll m a bs) k =
      if k < a then Memory.read m k else (bs[k - a]?).getD (Memory.read m k) := by
  induction bs generalizing m a with
  | nil => simp [Memory.writeAll]
  | cons b bs ih =>
    simp only [List.length_cons] at h
    have hw := Memory.wfFrom_write (v := b) hm (Nat.zero_le a) (show a < size by omega)
    rw [Memory.writeAll, ih hw (a + 1) (by omega), Memory.read_write hm]
    rcases Nat.lt_trichotomy k a with hlt | heq | hlt
    · simp [hlt, show k < a + 1 by omega, show ¬ k = a by omega]
    · simp [heq]
    · simp [show ¬ k < a + 1 by omega, show ¬ k = a by omega, show ¬ k < a by omega,
        show k - a = (k - (a + 1)) + 1 by omega]

theorem Memory.wfFrom_writeAll {size : Nat} {m : Memory} (hm : Memory.wfFrom size 0 m = true) (a : Nat)
    (bs : List Byte) (h : a + bs.length ≤ size) :
    Memory.wfFrom size 0 (Memory.writeAll m a bs) = true := by
  induction bs generalizing m a with
  | nil => exact hm
  | cons b bs ih =>
    simp only [List.length_cons] at h
    exact ih (Memory.wfFrom_write hm (Nat.zero_le a) (by omega)) (a + 1) (by omega)

/-! ### The framebuffer's cells -/

/-- A cell of the framebuffer after one is written. -/
theorem State.getFb_setFb {s : State} (h : s.fb.fbWf = true) (k j : Nat) (b : Byte) :
    (s.setFb k b).getFb j = if j = k then b else s.getFb j := Memory.read_write h k j b

theorem State.fbWf_setFb {s : State} (h : s.fb.fbWf = true) {k : Nat} (hk : k < fbWidth * fbHeight)
    (b : Byte) : (s.setFb k b).fb.fbWf = true := Memory.wfFrom_write h (Nat.zero_le k) hk

end Sys2Proof.Machine
end

