-- ==== Sys2Proof/Laws/Ops.lean ====
section
/-! SUPPORT. One lemma for each shared operation of Machine/Ops.lean, Machine/Flags.lean and
Machine/HostOps.lean that says what it can do, for citing in place of its definition. -/

namespace Sys2Proof.Machine

/-! ### Memory access (R40, R41) -/

theorem State.readMem_ok {s : State} {a : Nat} (h : a < memSize) :
    s.readMem a = .ok (Memory.read s.mem a) := by
  simp [State.readMem, Nat.not_le.2 h]

theorem State.readMem_error {s : State} {a : Nat} (h : memSize ≤ a) :
    s.readMem a = .error (.memoryOutOfRange a) := by
  simp [State.readMem, h]

theorem State.writeMem_ok {s : State} {a : Nat} {v : Byte} (h : a < memSize) :
    s.writeMem a v = .ok (s.setMem (Memory.write s.mem a v)) := by
  simp [State.writeMem, Nat.not_le.2 h]

theorem State.writeMem_error {s : State} {a : Nat} {v : Byte} (h : memSize ≤ a) :
    s.writeMem a v = .error (.memoryOutOfRange a) := by
  simp [State.writeMem, h]

/-- A fetch inside memory gives the word of the two bytes (R41, R42). -/
theorem State.fetch16_ok {s : State} {a : Nat} (h : a + 1 < memSize) :
    s.fetch16 a = .ok (wordOfBytes (Memory.read s.mem a) (Memory.read s.mem (a + 1))) := by
  rw [State.fetch16, State.readMem_ok (by omega), State.readMem_ok h]

/-- A fetch at 0xFFF or above faults with the first address out of range (R41, R152). -/
theorem State.fetch16_error {s : State} {a : Nat} (h : memSize ≤ a + 1) :
    s.fetch16 a = .error (.memoryOutOfRange (max a memSize)) := by
  by_cases ha : memSize ≤ a
  · rw [State.fetch16, State.readMem_error ha, Nat.max_eq_left ha]
  · rw [State.fetch16, State.readMem_ok (by omega), State.readMem_error h,
      Nat.max_eq_right (by omega), show a + 1 = memSize by omega]

/-- A fetch reads memory alone. -/
theorem State.fetch16_congr {s t : State} (h : t.mem = s.mem) (a : Nat) : t.fetch16 a = s.fetch16 a := by
  simp only [State.fetch16, State.readMem, h]

/-! ### The call stack (R22, R81, R83) -/

theorem StackPointer.push_empty : StackPointer.empty.push = some 0 := rfl

theorem StackPointer.push_full : (StackPointer.top 15).push = none := by decide

theorem StackPointer.push_eq_none {p : StackPointer} : p.push = none ↔ p = .top 15 := by
  cases p with
  | empty => simp [StackPointer.push]
  | top j => simp [StackPointer.push, Fin.ext_iff]; omega

/-- A push raises SP by one (R83). -/
theorem StackPointer.toInt_push {p : StackPointer} {j : Fin 16} (h : p.push = some j) :
    (StackPointer.top j).toInt = p.toInt + 1 := by
  cases p with
  | empty => simp [StackPointer.push] at h; subst h; rfl
  | top k =>
    simp only [StackPointer.push] at h
    split at h <;> simp at h
    subst h; simp [StackPointer.toInt]

/-- A pop lowers SP by one (R81). -/
theorem StackPointer.toInt_below (j : Fin 16) :
    (StackPointer.below j).toInt = (StackPointer.top j).toInt - 1 := by
  unfold StackPointer.below
  split <;> simp [StackPointer.toInt] <;> omega

/-- A pop after a push gives the pointer before it (R89). -/
theorem StackPointer.below_push {p : StackPointer} {j : Fin 16} (h : p.push = some j) :
    StackPointer.below j = p := by
  cases p with
  | empty => simp [StackPointer.push] at h; subst h; rfl
  | top k =>
    simp only [StackPointer.push] at h
    split at h <;> simp at h
    subst h; simp [StackPointer.below]

/-- SP is an integer in [-1, 15] (R22). -/
theorem StackPointer.toInt_range (p : StackPointer) : -1 ≤ p.toInt ∧ p.toInt ≤ 15 := by
  cases p with
  | empty => decide
  | top j => simp [StackPointer.toInt]; omega

/-- A push either finds the stack full or writes the slot above (R83, R150). -/
theorem State.pushReturn_eq (s : State) (w : Word) :
    (s.sp = .top 15 ∧ s.pushReturn w = .error .stackOverflow) ∨
      ∃ j, s.sp.push = some j ∧ s.pushReturn w = .ok ((s.setSp (.top j)).setStack j w) := by
  unfold State.pushReturn
  cases h : s.sp.push with
  | none => exact .inl ⟨StackPointer.push_eq_none.1 h, rfl⟩
  | some j => exact .inr ⟨j, rfl, rfl⟩

/-! ### Timers, skips, flags -/

/-- A timer goes down by one and stays at zero (R71). -/
theorem countDown_toNat (b : Byte) : (countDown b).toNat = b.toNat - 1 := by
  unfold countDown
  split
  · simp_all
  · have : b.toNat ≠ 0 := fun h => ‹¬ b = 0#8› (BitVec.eq_of_toNat_eq (by simpa using h))
    rw [BitVec.toNat_sub]
    have := b.isLt
    simp
    omega

theorem State.skipIf_pc (s : State) (c : Bool) :
    (s.skipIf c).pc = if c = true then s.pc + 2#16 else s.pc := by
  unfold State.skipIf; split <;> rfl

theorem flagByte_eq (p : Bool) : flagByte p = if p = true then 1#8 else 0#8 := rfl

/-- Whether the final VF is a free draw: x = 0xF under `FLAG_DEST_POLICY = open` (R91). -/
def State.freeFlag (s : State) (x : Reg) : Prop := s.cfg.flagDest = .openDraw ∧ x = regVF

/-- Without a free draw the flag is written, then the result (R91). -/
theorem State.writeFlagged_eq {s : State} {x : Reg} (h : ¬ s.freeFlag x) (flag result : Byte) :
    s.writeFlagged x flag result = (s.setV regVF flag).setV x result := by
  unfold State.writeFlagged
  unfold State.freeFlag at h
  split
  · rfl
  · rw [if_neg fun hx => h ⟨‹_›, hx⟩]

/-- With one, VF alone is written, with the free byte (R91, D3). -/
theorem State.writeFlagged_free {s : State} {x : Reg} (h : s.freeFlag x) (flag result : Byte) :
    s.writeFlagged x flag result = (s.setV regVF (Config.flagByte s.draws)).advanceDraws := by
  obtain ⟨h1, h2⟩ := h
  simp [State.writeFlagged, h1, h2]

@[simp] theorem State.skipIf_v (s : State) (c : Bool) : (s.skipIf c).v = s.v := by
  unfold State.skipIf; split <;> rfl
@[simp] theorem State.skipIf_i (s : State) (c : Bool) : (s.skipIf c).i = s.i := by
  unfold State.skipIf; split <;> rfl
@[simp] theorem State.skipIf_sp (s : State) (c : Bool) : (s.skipIf c).sp = s.sp := by
  unfold State.skipIf; split <;> rfl
@[simp] theorem State.skipIf_stack (s : State) (c : Bool) : (s.skipIf c).stack = s.stack := by
  unfold State.skipIf; split <;> rfl
@[simp] theorem State.skipIf_dt (s : State) (c : Bool) : (s.skipIf c).dt = s.dt := by
  unfold State.skipIf; split <;> rfl
@[simp] theorem State.skipIf_st (s : State) (c : Bool) : (s.skipIf c).st = s.st := by
  unfold State.skipIf; split <;> rfl
@[simp] theorem State.skipIf_mem (s : State) (c : Bool) : (s.skipIf c).mem = s.mem := by
  unfold State.skipIf; split <;> rfl
@[simp] theorem State.skipIf_fb (s : State) (c : Bool) : (s.skipIf c).fb = s.fb := by
  unfold State.skipIf; split <;> rfl
@[simp] theorem State.skipIf_dirty (s : State) (c : Bool) : (s.skipIf c).dirty = s.dirty := by
  unfold State.skipIf; split <;> rfl
@[simp] theorem State.skipIf_keys (s : State) (c : Bool) : (s.skipIf c).keys = s.keys := by
  unfold State.skipIf; split <;> rfl
@[simp] theorem State.skipIf_kblock (s : State) (c : Bool) : (s.skipIf c).kblock = s.kblock := by
  unfold State.skipIf; split <;> rfl
@[simp] theorem State.skipIf_lastKey (s : State) (c : Bool) : (s.skipIf c).lastKey = s.lastKey := by
  unfold State.skipIf; split <;> rfl
@[simp] theorem State.skipIf_lastInsn (s : State) (c : Bool) : (s.skipIf c).lastInsn = s.lastInsn := by
  unfold State.skipIf; split <;> rfl
@[simp] theorem State.skipIf_cfg (s : State) (c : Bool) : (s.skipIf c).cfg = s.cfg := by
  unfold State.skipIf; split <;> rfl
@[simp] theorem State.skipIf_draws (s : State) (c : Bool) : (s.skipIf c).draws = s.draws := by
  unfold State.skipIf; split <;> rfl
@[simp] theorem State.skipIf_script (s : State) (c : Bool) : (s.skipIf c).script = s.script := by
  unfold State.skipIf; split <;> rfl
@[simp] theorem State.skipIf_ticks (s : State) (c : Bool) : (s.skipIf c).ticks = s.ticks := by
  unfold State.skipIf; split <;> rfl
@[simp] theorem State.skipIf_result (s : State) (c : Bool) : (s.skipIf c).result = s.result := by
  unfold State.skipIf; split <;> rfl
@[simp] theorem State.writeFlagged_i (s : State) (x : Reg) (f r : Byte) :
    (s.writeFlagged x f r).i = s.i := by
  unfold State.writeFlagged; split <;> try split
  all_goals rfl
@[simp] theorem State.writeFlagged_pc (s : State) (x : Reg) (f r : Byte) :
    (s.writeFlagged x f r).pc = s.pc := by
  unfold State.writeFlagged; split <;> try split
  all_goals rfl
@[simp] theorem State.writeFlagged_sp (s : State) (x : Reg) (f r : Byte) :
    (s.writeFlagged x f r).sp = s.sp := by
  unfold State.writeFlagged; split <;> try split
  all_goals rfl
@[simp] theorem State.writeFlagged_stack (s : State) (x : Reg) (f r : Byte) :
    (s.writeFlagged x f r).stack = s.stack := by
  unfold State.writeFlagged; split <;> try split
  all_goals rfl
@[simp] theorem State.writeFlagged_dt (s : State) (x : Reg) (f r : Byte) :
    (s.writeFlagged x f r).dt = s.dt := by
  unfold State.writeFlagged; split <;> try split
  all_goals rfl
@[simp] theorem State.writeFlagged_st (s : State) (x : Reg) (f r : Byte) :
    (s.writeFlagged x f r).st = s.st := by
  unfold State.writeFlagged; split <;> try split
  all_goals rfl
@[simp] theorem State.writeFlagged_mem (s : State) (x : Reg) (f r : Byte) :
    (s.writeFlagged x f r).mem = s.mem := by
  unfold State.writeFlagged; split <;> try split
  all_goals rfl
@[simp] theorem State.writeFlagged_fb (s : State) (x : Reg) (f r : Byte) :
    (s.writeFlagged x f r).fb = s.fb := by
  unfold State.writeFlagged; split <;> try split
  all_goals rfl
@[simp] theorem State.writeFlagged_dirty (s : State) (x : Reg) (f r : Byte) :
    (s.writeFlagged x f r).dirty = s.dirty := by
  unfold State.writeFlagged; split <;> try split
  all_goals rfl
@[simp] theorem State.writeFlagged_keys (s : State) (x : Reg) (f r : Byte) :
    (s.writeFlagged x f r).keys = s.keys := by
  unfold State.writeFlagged; split <;> try split
  all_goals rfl
@[simp] theorem State.writeFlagged_kblock (s : State) (x : Reg) (f r : Byte) :
    (s.writeFlagged x f r).kblock = s.kblock := by
  unfold State.writeFlagged; split <;> try split
  all_goals rfl
@[simp] theorem State.writeFlagged_lastKey (s : State) (x : Reg) (f r : Byte) :
    (s.writeFlagged x f r).lastKey = s.lastKey := by
  unfold State.writeFlagged; split <;> try split
  all_goals rfl
@[simp] theorem State.writeFlagged_lastInsn (s : State) (x : Reg) (f r : Byte) :
    (s.writeFlagged x f r).lastInsn = s.lastInsn := by
  unfold State.writeFlagged; split <;> try split
  all_goals rfl
@[simp] theorem State.writeFlagged_cfg (s : State) (x : Reg) (f r : Byte) :
    (s.writeFlagged x f r).cfg = s.cfg := by
  unfold State.writeFlagged; split <;> try split
  all_goals rfl
@[simp] theorem State.writeFlagged_script (s : State) (x : Reg) (f r : Byte) :
    (s.writeFlagged x f r).script = s.script := by
  unfold State.writeFlagged; split <;> try split
  all_goals rfl
@[simp] theorem State.writeFlagged_ticks (s : State) (x : Reg) (f r : Byte) :
    (s.writeFlagged x f r).ticks = s.ticks := by
  unfold State.writeFlagged; split <;> try split
  all_goals rfl
@[simp] theorem State.writeFlagged_result (s : State) (x : Reg) (f r : Byte) :
    (s.writeFlagged x f r).result = s.result := by
  unfold State.writeFlagged; split <;> try split
  all_goals rfl
@[simp] theorem State.noteKey_v (s : State) (c : KeyCode) (p : Bool) :
    (s.noteKey c p).v = s.v := by
  unfold State.noteKey; split <;> try split
  all_goals rfl
@[simp] theorem State.noteKey_i (s : State) (c : KeyCode) (p : Bool) :
    (s.noteKey c p).i = s.i := by
  unfold State.noteKey; split <;> try split
  all_goals rfl
@[simp] theorem State.noteKey_pc (s : State) (c : KeyCode) (p : Bool) :
    (s.noteKey c p).pc = s.pc := by
  unfold State.noteKey; split <;> try split
  all_goals rfl
@[simp] theorem State.noteKey_sp (s : State) (c : KeyCode) (p : Bool) :
    (s.noteKey c p).sp = s.sp := by
  unfold State.noteKey; split <;> try split
  all_goals rfl
@[simp] theorem State.noteKey_stack (s : State) (c : KeyCode) (p : Bool) :
    (s.noteKey c p).stack = s.stack := by
  unfold State.noteKey; split <;> try split
  all_goals rfl
@[simp] theorem State.noteKey_dt (s : State) (c : KeyCode) (p : Bool) :
    (s.noteKey c p).dt = s.dt := by
  unfold State.noteKey; split <;> try split
  all_goals rfl
@[simp] theorem State.noteKey_st (s : State) (c : KeyCode) (p : Bool) :
    (s.noteKey c p).st = s.st := by
  unfold State.noteKey; split <;> try split
  all_goals rfl
@[simp] theorem State.noteKey_mem (s : State) (c : KeyCode) (p : Bool) :
    (s.noteKey c p).mem = s.mem := by
  unfold State.noteKey; split <;> try split
  all_goals rfl
@[simp] theorem State.noteKey_fb (s : State) (c : KeyCode) (p : Bool) :
    (s.noteKey c p).fb = s.fb := by
  unfold State.noteKey; split <;> try split
  all_goals rfl
@[simp] theorem State.noteKey_dirty (s : State) (c : KeyCode) (p : Bool) :
    (s.noteKey c p).dirty = s.dirty := by
  unfold State.noteKey; split <;> try split
  all_goals rfl
@[simp] theorem State.noteKey_keys (s : State) (c : KeyCode) (p : Bool) :
    (s.noteKey c p).keys = s.keys := by
  unfold State.noteKey; split <;> try split
  all_goals rfl
@[simp] theorem State.noteKey_lastInsn (s : State) (c : KeyCode) (p : Bool) :
    (s.noteKey c p).lastInsn = s.lastInsn := by
  unfold State.noteKey; split <;> try split
  all_goals rfl
@[simp] theorem State.noteKey_cfg (s : State) (c : KeyCode) (p : Bool) :
    (s.noteKey c p).cfg = s.cfg := by
  unfold State.noteKey; split <;> try split
  all_goals rfl
@[simp] theorem State.noteKey_draws (s : State) (c : KeyCode) (p : Bool) :
    (s.noteKey c p).draws = s.draws := by
  unfold State.noteKey; split <;> try split
  all_goals rfl
@[simp] theorem State.noteKey_script (s : State) (c : KeyCode) (p : Bool) :
    (s.noteKey c p).script = s.script := by
  unfold State.noteKey; split <;> try split
  all_goals rfl
@[simp] theorem State.noteKey_ticks (s : State) (c : KeyCode) (p : Bool) :
    (s.noteKey c p).ticks = s.ticks := by
  unfold State.noteKey; split <;> try split
  all_goals rfl
@[simp] theorem State.noteKey_result (s : State) (c : KeyCode) (p : Bool) :
    (s.noteKey c p).result = s.result := by
  unfold State.noteKey; split <;> try split
  all_goals rfl

@[simp] theorem State.getV_skipIf (s : State) (c : Bool) (r : Reg) : (s.skipIf c).getV r = s.getV r := by
  simp only [State.getV, State.skipIf_v]
@[simp] theorem State.getStack_skipIf (s : State) (c : Bool) (j : Fin 16) :
    (s.skipIf c).getStack j = s.getStack j := by
  simp only [State.getStack, State.skipIf_stack]
@[simp] theorem State.getFb_skipIf (s : State) (c : Bool) (k : Nat) : (s.skipIf c).getFb k = s.getFb k := by
  simp only [State.getFb, State.skipIf_fb]
@[simp] theorem State.getKey_skipIf (s : State) (c : Bool) (k : KeyCode) :
    (s.skipIf c).getKey k = s.getKey k := by
  simp only [State.getKey, State.skipIf_keys]
@[simp] theorem State.getStack_writeFlagged (s : State) (x : Reg) (f r : Byte) (j : Fin 16) :
    (s.writeFlagged x f r).getStack j = s.getStack j := by
  simp only [State.getStack, State.writeFlagged_stack]
@[simp] theorem State.getFb_writeFlagged (s : State) (x : Reg) (f r : Byte) (k : Nat) :
    (s.writeFlagged x f r).getFb k = s.getFb k := by
  simp only [State.getFb, State.writeFlagged_fb]
@[simp] theorem State.getKey_writeFlagged (s : State) (x : Reg) (f r : Byte) (k : KeyCode) :
    (s.writeFlagged x f r).getKey k = s.getKey k := by
  simp only [State.getKey, State.writeFlagged_keys]

/-- The registers after a flag-setting operation (R91). -/
theorem State.getV_writeFlagged (s : State) (x q : Reg) (flag result : Byte) :
    (s.writeFlagged x flag result).getV q =
      if q = x then (if s.cfg.flagDest = .openDraw ∧ x = regVF then Config.flagByte s.draws else result)
      else if q = regVF then flag else s.getV q := by
  by_cases h : s.freeFlag x
  · rw [State.writeFlagged_free h]
    obtain ⟨h1, rfl⟩ := h
    by_cases hq : q = regVF <;> simp [h1, hq]
  · rw [State.writeFlagged_eq h]
    unfold State.freeFlag at h
    by_cases hq : q = x <;> simp [h, hq]

/-- The free bytes taken by a flag-setting operation: one under `open` with x = 0xF, else none (R91). -/
theorem State.writeFlagged_draws (s : State) (x : Reg) (flag result : Byte) :
    (s.writeFlagged x flag result).draws =
      if s.cfg.flagDest = .openDraw ∧ x = regVF then s.draws + 1 else s.draws := by
  unfold State.writeFlagged
  split
  · simp_all
  · split <;> simp_all

/-! ### Key events (R129, R130, R140) -/

theorem State.noteKey_kblock (s : State) (c : KeyCode) (p : Bool) :
    (s.noteKey c p).kblock = if p = true ∧ s.kblock = .locked then .waitingForRelease else s.kblock := by
  unfold State.noteKey; split <;> try split
  all_goals simp_all

theorem State.noteKey_lastKey (s : State) (c : KeyCode) (p : Bool) :
    (s.noteKey c p).lastKey =
      if p = true ∧ (s.kblock = .locked ∨ s.cfg.lastKeyRecord = .everyPress) then c else s.lastKey := by
  unfold State.noteKey; split <;> try split
  all_goals simp_all

/-! ### Pending host transactions (R172, R173) -/

/-- No transaction comes before the next tick exactly when none of the script is due. -/
theorem takeDue_eq_none {n : Nat} {ops : List (Nat × HostOp)} :
    takeDue n ops = none ↔ ∀ p ∈ ops, n < p.1 := by
  induction ops with
  | nil => simp [takeDue]
  | cons p ops ih =>
    rw [takeDue]
    split
    · simp; omega
    · simp [ih]; omega

/-- What a script delivers: its first due transaction, taken out of its place. -/
theorem takeDue_eq_some {n : Nat} {ops rest : List (Nat × HostOp)} {op : HostOp} :
    takeDue n ops = some (op, rest) ↔ ∃ before t after, ops = before ++ (t, op) :: after ∧
      (∀ p ∈ before, n < p.1) ∧ t ≤ n ∧ rest = before ++ after := by
  induction ops generalizing rest with
  | nil => simp [takeDue]
  | cons p ops ih =>
    rw [takeDue]
    split
    · rename_i hp
      constructor
      · intro h; cases h
        exact ⟨[], p.1, ops, rfl, by simp, hp, rfl⟩
      · rintro ⟨before, t, after, h1, h2, h3, rfl⟩
        cases before with
        | nil => cases h1; rfl
        | cons q before =>
          cases h1
          exact absurd (h2 p (by simp)) (Nat.not_lt.2 hp)
    · rename_i hp
      constructor
      · intro h
        rw [Option.map_eq_some_iff] at h
        obtain ⟨⟨op', rest'⟩, h1, h2⟩ := h
        cases h2
        obtain ⟨before, t, after, rfl, h4, h5, rfl⟩ := ih.1 h1
        exact ⟨p :: before, t, after, rfl, by simpa using ⟨by omega, fun a b => h4 (a, b)⟩, h5, rfl⟩
      · rintro ⟨before, t, after, h1, h2, h3, rfl⟩
        cases before with
        | nil => cases h1; exact absurd h3 hp
        | cons q before =>
          cases h1
          rw [ih.2 ⟨before, t, after, rfl, fun x hx => h2 x (by simp [hx]), h3, rfl⟩]
          rfl

theorem State.due_none_iff {s : State} : s.due = none ↔ ∀ p ∈ s.script, s.ticks < p.1 := takeDue_eq_none

/-- `withFetchWord` leaves no transaction that comes before the tick. -/
theorem State.due_withFetchWord (s : State) (nbits w : Nat) : (s.withFetchWord nbits w).due = none := by
  rw [State.due_none_iff]
  intro p hp
  exact of_decide_eq_true (List.mem_filter.1 hp).2

/-! ### Runs (R173) -/

/-- A run starts only with an admissible end address: at most 0xFFE, in the image, the self-jump there. -/
theorem State.mayEndAt_iff {s : State} {image : List Byte} {e : Addr12} :
    s.mayEndAt image e = true ↔ e.toNat ≤ 0xFFE ∧ s.cfg.origin.toNat ≤ e.toNat ∧
      e.toNat < s.cfg.origin.toNat + image.length ∧ s.selfJumpAt e = true := by
  simp [State.mayEndAt, and_assoc]

/-- What a run that observes a normal end has met: a launch state that admits the end address (R173). -/
theorem runLaunch_done {launched : Host.Outcome State Fault Refusal} {image : List Byte} {e : Addr12}
    {fuel : Nat} {t : State} (h : runLaunch launched image (some e) fuel = .done t) :
    ∃ s, launched = .next s ∧ s.mayEndAt image e = true ∧ runTo (some e) fuel s = .done t := by
  unfold runLaunch at h
  split at h
  · rename_i s
    split at h
    · exact ⟨s, rfl, ‹_›, h⟩
    · cases h
  · cases h
  · cases h

/-! ### A tick and a step -/

/-- A tick whose fetch succeeds runs the decoded instruction on the state after the timer step, the fetch
and the advance (R70). -/
theorem tick_eq {s : State} (h : s.pc.toNat + 1 < memSize) :
    tick s = exec s.nextInstr (s.stepTimers.advance s.nextWord) := by
  rw [tick, State.fetch16_ok h]
  rfl

/-- A tick that answers a next state has fetched (R70, R157). -/
theorem tick_next {s t : State} (h : tick s = .next t) :
    s.pc.toNat + 1 < memSize ∧ exec s.nextInstr (s.stepTimers.advance s.nextWord) = .next t := by
  by_cases hp : s.pc.toNat + 1 < memSize
  · exact ⟨hp, (tick_eq hp).symm.trans h⟩
  · rw [tick, State.fetch16_error (by omega)] at h
    cases h

/-- What a step can do: perform the transaction that is due, or tick (R135, R173). -/
theorem step_next {s t : State} (h : step s = .next t) :
    (∃ op ops, s.due = some (op, ops) ∧ performHostOp op (s.setScript ops) = .next t) ∨
      (s.due = none ∧ s.pc.toNat + 1 < memSize ∧
        exec s.nextInstr (s.stepTimers.advance s.nextWord) = .next t) := by
  unfold step at h
  cases hd : s.due with
  | none => rw [hd] at h; exact .inr ⟨rfl, tick_next h⟩
  | some p => rw [hd] at h; exact .inl ⟨p.1, p.2, rfl, h⟩

theorem step_eq {s : State} (h : s.ticksNext) :
    step s = exec s.nextInstr (s.stepTimers.advance s.nextWord) := by
  rw [step, h.1, tick_eq h.2]

/-- What a host transaction can do when it answers a next state (R137, R139, R140, R143). -/
theorem performHostOp_next {op : HostOp} {s t : State} (h : performHostOp op s = .next t) :
    (∃ bytes, op = .load bytes ∧ s.cfg.origin.toNat + bytes.length ≤ memSize ∧
        t = s.setMem (Memory.writeAll s.mem s.cfg.origin.toNat bytes)) ∨
      (op = .reset ∧ t = hostReset s) ∨
      (∃ (c : KeyCode) (p : Bool), op = .keySet c.val p ∧ t = (s.setKey c p).noteKey c p) ∨
      (op = .clearDirty ∧ t = s.setDirty false) := by
  cases op with
  | load bytes =>
    simp only [performHostOp, hostLoad] at h
    split at h
    · cases h; exact .inl ⟨bytes, rfl, ‹_›, rfl⟩
    · cases h
  | reset => cases h; exact .inr (.inl ⟨rfl, rfl⟩)
  | keySet code p =>
    simp only [performHostOp, hostKeySet] at h
    split at h
    · cases h; exact .inr (.inr (.inl ⟨⟨code, ‹_›⟩, p, rfl, rfl⟩))
    · cases h
  | clearDirty => cases h; exact .inr (.inr (.inr ⟨rfl, rfl⟩))

/-- State.reset is the host's reset of the core as constructed (R37, R168; log entry 1). -/
theorem reset_eq : State.reset = hostReset (State.constructed Config.standard) := rfl

end Sys2Proof.Machine
end

