-- ==== Sys2Proof/Laws/Display.lean ====
section
/-! SUPPORT. The sprite draw, each loop said once: the cells and the VF it leaves, and where it faults
(spec/44_display.md R115-R117). -/

namespace Sys2Proof.Machine

theorem cellIndex_div {xp yp : Nat} (h : xp < fbWidth) : cellIndex xp yp / fbWidth = yp := by
  simp only [cellIndex, fbWidth] at *; omega

theorem cellIndex_mod {xp yp : Nat} (h : xp < fbWidth) : cellIndex xp yp % fbWidth = xp := by
  simp only [cellIndex, fbWidth] at *; omega

theorem cellIndex_lt {xp yp : Nat} (hx : xp < fbWidth) (hy : yp < fbHeight) :
    cellIndex xp yp < fbWidth * fbHeight := by
  simp only [cellIndex, fbWidth, fbHeight] at *; omega

/-- A cell is the one at `(xp, yp)` exactly when its column and row are. -/
theorem eq_cellIndex_iff {j xp yp : Nat} (hx : xp < fbWidth) :
    j = cellIndex xp yp ↔ j % fbWidth = xp ∧ j / fbWidth = yp := by
  simp only [cellIndex, fbWidth] at *; omega

/-- One pixel: its cell, VF from the cell, nothing else (R115, R116). -/
theorem State.drawPixel_spec {s : State} (hw : s.fb.fbWf = true) {b : Byte} {c xp yp : Nat}
    (hx : xp < fbWidth) (hy : yp < fbHeight) :
    let t := s.drawPixel b c xp yp
    t = { s with v := t.v, fb := t.fb } ∧ t.fb.fbWf = true ∧
      (∀ j, t.getFb j = if j = cellIndex xp yp then s.getFb j ^^^ pixelValue s.cfg.pixelXor b c
        else s.getFb j) ∧
      (∀ q, t.getV q = if q = regVF then collisionFlag (t.getFb (cellIndex xp yp)) else s.getV q) := by
  refine ⟨rfl, State.fbWf_setFb hw (cellIndex_lt hx hy) _, fun j => ?_, fun q => ?_⟩
  · simp only [State.drawPixel, State.getFb_setV, State.getFb_setFb hw]
    split <;> simp_all
  · simp only [State.drawPixel, State.getV_setV, State.getV_setFb, State.getFb_setV,
      State.getFb_setFb hw]
    simp

/-- The columns of one sprite row: each cell of the row under columns `c`..`c + left - 1` inside the screen
gets its pixel, and VF is that of the last one (R115-R117). -/
theorem State.drawColumns_spec {s : State} (hw : s.fb.fbWf = true) {b : Byte} {x0 yp left c : Nat}
    (hy : yp < fbHeight) :
    let t := s.drawColumns b x0 yp left c
    t = { s with v := t.v, fb := t.fb } ∧ t.fb.fbWf = true ∧
      (∀ j, t.getFb j = s.getFb j ^^^
        if j / fbWidth = yp ∧ x0 + c ≤ j % fbWidth ∧ j % fbWidth < x0 + c + left then
          pixelValue s.cfg.pixelXor b (j % fbWidth - x0) else 0#8) ∧
      (∀ q, t.getV q = if q = regVF ∧ 0 < left ∧ x0 + c < fbWidth then
        collisionFlag (t.getFb (cellIndex (min (x0 + c + left) fbWidth - 1) yp)) else s.getV q) := by
  induction left generalizing s c with
  | zero =>
    refine ⟨rfl, hw, fun j => ?_, fun q => by simp [State.drawColumns]⟩
    rw [if_neg (by omega)]; simp [State.drawColumns]
  | succ left ih =>
    unfold State.drawColumns
    split
    · rename_i hclip
      refine ⟨rfl, hw, fun j => ?_, fun q => by simp [Nat.not_lt.2 hclip]⟩
      have hj : j % fbWidth < fbWidth := Nat.mod_lt _ (by decide)
      rw [if_neg (by omega)]; simp
    · rename_i hin
      have hx : x0 + c < fbWidth := by omega
      obtain ⟨p1, p2, p3, p4⟩ := State.drawPixel_spec hw (b := b) (c := c) hx hy
      obtain ⟨q1, q2, q3, q4⟩ := ih (s := s.drawPixel b c (x0 + c) yp) (c := c + 1) p2
      have hcfg : (s.drawPixel b c (x0 + c) yp).cfg = s.cfg := by rw [p1]
      refine ⟨?_, q2, fun j => ?_, fun q => ?_⟩
      · rw [q1]; rw [p1]
      · rw [q3, p3, hcfg]
        by_cases hj : j = cellIndex (x0 + c) yp
        · have hj' := (eq_cellIndex_iff hx).1 hj
          rw [if_pos hj, if_neg (by omega), if_pos (by omega), hj'.1]
          simp
        · have hj' := mt (eq_cellIndex_iff hx).2 hj
          rw [if_neg hj]
          congr 1
          refine if_congr ?_ rfl rfl
          omega
      · rw [q4]
        by_cases hl : left = 0
        · subst hl
          simp only [State.drawColumns, p4]
          have : min (x0 + c + (0 + 1)) fbWidth - 1 = x0 + c := by omega
          simp [hx]
        · by_cases hc : x0 + (c + 1) < fbWidth
          · simp only [hx, hc, show 0 < left by omega, p4, show x0 + (c + 1) + left = x0 + c + (left + 1) by omega]
            by_cases hq : q = regVF <;> simp [hq]
          · have hm : min (x0 + c + (left + 1)) fbWidth - 1 = x0 + c := by omega
            have hcell : (s.drawPixel b c (x0 + c) yp).drawColumns b x0 yp left (c + 1) =
                s.drawPixel b c (x0 + c) yp := by
              obtain ⟨l, rfl⟩ := Nat.exists_eq_succ_of_ne_zero hl
              rw [State.drawColumns, if_pos (by omega)]
            simp only [hc, hx, hm, hcell, p4]
            simp

/-- What a draw adds to a cell: the pixel of the sprite bit over it, or nothing. -/
def spritePixel (s : State) (x0 y0 lo n j : Nat) : Byte :=
  if x0 ≤ j % fbWidth ∧ j % fbWidth < x0 + 8 ∧ y0 + lo ≤ j / fbWidth ∧ j / fbWidth < y0 + lo + n ∧
      j / fbWidth < fbHeight then
    pixelValue s.cfg.pixelXor (Memory.read s.mem (s.indexed (j / fbWidth - y0))) (j % fbWidth - x0)
  else 0#8

/-- The rows of a sprite from row `r` on, when every row that is read stands inside memory (R115-R117). -/
theorem State.drawRows_ok {s : State} (hw : s.fb.fbWf = true) {x0 y0 left r : Nat}
    (hread : ∀ k, r ≤ k → k < r + left → (k = r ∨ y0 + (k - 1) < fbHeight) → s.indexed k < memSize) :
    ∃ t, s.drawRows x0 y0 left r = .ok t ∧ t = { s with v := t.v, fb := t.fb } ∧ t.fb.fbWf = true ∧
      (∀ j, t.getFb j = s.getFb j ^^^ spritePixel s x0 y0 r left j) ∧
      (∀ q, t.getV q = if q = regVF ∧ 0 < left ∧ y0 + r < fbHeight ∧ x0 < fbWidth then
        collisionFlag (t.getFb (cellIndex (min (x0 + 8) fbWidth - 1)
          (min (y0 + r + left) fbHeight - 1))) else s.getV q) := by
  induction left generalizing s r with
  | zero =>
    refine ⟨s, rfl, rfl, hw, fun j => ?_, fun q => by simp⟩
    rw [spritePixel, if_neg (by omega)]; simp
  | succ left ih =>
    rw [State.drawRows, State.readMem_ok (hread r (le_refl _) (by omega) (.inl rfl))]
    by_cases hclip : fbHeight ≤ y0 + r
    · refine ⟨s, by simp [hclip], rfl, hw, fun j => ?_, fun q => by simp [Nat.not_lt.2 hclip]⟩
      rw [spritePixel, if_neg (by omega)]; simp
    · simp only [hclip, if_false]
      have hy : y0 + r < fbHeight := by omega
      obtain ⟨p1, p2, p3, p4⟩ := State.drawColumns_spec hw
        (b := Memory.read s.mem (s.indexed r)) (x0 := x0) (left := 8) (c := 0) hy
      set u := s.drawColumns (Memory.read s.mem (s.indexed r)) x0 (y0 + r) 8 0 with hu
      have hcfg : u.cfg = s.cfg := by rw [p1]
      have hmem : u.mem = s.mem := by rw [p1]
      have hi : ∀ k, u.indexed k = s.indexed k := fun k => by rw [p1]; rfl
      obtain ⟨t, t1, t2, t3, t4, t5⟩ := ih (s := u) (r := r + 1) p2 (fun k h1 h2 h3 => by
        rw [hi]; exact hread k (by omega) (by omega) (by rcases h3 with h3 | h3 <;> [(right; subst h3; simpa using hy); exact .inr h3]))
      refine ⟨t, t1, ?_, t3, fun j => ?_, fun q => ?_⟩
      · rw [t2]; rw [p1]
      · rw [t4, p3]
        simp only [spritePixel, hcfg, hmem, hi, Nat.add_zero]
        by_cases hrow : j / fbWidth = y0 + r
        · have e1 : ¬ (x0 ≤ j % fbWidth ∧ j % fbWidth < x0 + 8 ∧ y0 + (r + 1) ≤ j / fbWidth ∧
            j / fbWidth < y0 + (r + 1) + left ∧ j / fbWidth < fbHeight) := by omega
          have e2 : j / fbWidth - y0 = r := by omega
          rw [if_neg e1, e2]
          by_cases hcol : x0 ≤ j % fbWidth ∧ j % fbWidth < x0 + 8
          · rw [if_pos (by omega), if_pos (by omega)]; simp
          · rw [if_neg (by omega), if_neg (by omega)]; simp
        · rw [if_neg (fun h => hrow h.1)]
          rw [show (s.getFb j ^^^ 0#8) = s.getFb j by simp]
          congr 1
          refine if_congr ?_ rfl rfl
          omega
      · rw [t5, p4]
        simp only [Nat.add_zero]
        by_cases hq : q = regVF
        · by_cases hx : x0 < fbWidth
          · by_cases hl : left = 0
            · subst hl
              have : t = u := by
                have := t1; simp [State.drawRows] at this; exact this.symm
              subst this
              have e : min (y0 + r + (0 + 1)) fbHeight - 1 = y0 + r := by omega
              simp only [hq, hx, hy, e]
              simp
            · by_cases hy' : y0 + (r + 1) < fbHeight
              · simp [hq, hx, hy, hy', show 0 < left by omega,
                  show y0 + (r + 1) + left = y0 + r + (left + 1) by omega]
              · have : t = u := by
                  obtain ⟨l, rfl⟩ := Nat.exists_eq_succ_of_ne_zero hl
                  rw [State.drawRows, State.readMem_ok (by
                    rw [hi]; exact hread (r + 1) (by omega) (by omega) (.inr (by simpa using hy)))] at t1
                  simp [show fbHeight ≤ y0 + (r + 1) by omega] at t1
                  exact t1.symm
                subst this
                have e : min (y0 + r + (left + 1)) fbHeight - 1 = y0 + r := by omega
                simp only [hq, hx, hy, hy', e]
                simp
          · simp [hq, hx]
        · simp [hq]

/-- The first row read out of memory faults, with the first address out of range (R115, R152). -/
theorem State.drawRows_error {s : State} {x0 y0 left r k : Nat} (h1 : r ≤ k) (h2 : k < r + left)
    (h3 : k = r ∨ y0 + (k - 1) < fbHeight) (h4 : memSize ≤ s.indexed k) :
    s.drawRows x0 y0 left r = .error (.memoryOutOfRange (max (s.indexed r) memSize)) := by
  induction left generalizing s r with
  | zero => omega
  | succ left ih =>
    rw [State.drawRows]
    by_cases hr : memSize ≤ s.indexed r
    · rw [State.readMem_error hr, Nat.max_eq_left hr]
    · have hk : k ≠ r := fun h => hr (h ▸ h4)
      rw [State.readMem_ok (by omega)]
      have hy : ¬ fbHeight ≤ y0 + r := by rcases h3 with h3 | h3 <;> omega
      simp only [hy, if_false]
      have hi : ∀ u b m l c, (State.drawColumns u b x0 m l c).i = u.i := by
        intro u b m l
        induction l generalizing u with
        | zero => intro c; rfl
        | succ l ihl => intro c; rw [State.drawColumns]; split; · rfl
                        · rw [ihl]; rfl
      have hidx : ∀ m, (s.drawColumns (Memory.read s.mem (s.indexed r)) x0 (y0 + r) 8 0).indexed m =
          s.indexed m := fun m => by simp only [State.indexed, hi]
      rw [ih (by omega) (by omega) (by omega) (by rw [hidx]; exact h4), hidx]
      simp only [State.indexed] at *
      rw [Nat.max_eq_right (by omega), Nat.max_eq_right (by omega)]

end Sys2Proof.Machine
end

