-- ==== Sys2Proof/Laws/PerInstr.lean ====
section
/-! SUPPORT. Per-instruction laws. Family `Row`: the word the encoder gives an instruction is a word of the
instruction's row of spec/opcode_table.json: it agrees with the row's pattern on the row's mask. -/

namespace Sys2Proof

/-- The word of an instruction is in the instruction's opcode-table row, and the row's mask and operand bits
do not overlap. -/
def Laws.Row.Statement (i : Instr) : Prop :=
  encode i &&& (opcodeRow i).mask = (opcodeRow i).pattern ∧
    (opcodeRow i).mask &&& (opcodeRow i).operands = 0#16

/-- The bits of a word of format A under a mask of the group. -/
theorem packA_and_group (g : Nibble) (a : Addr12) : packA g a &&& 0xF000#16 = packA g 0#12 := by
  revert g; intro g
  apply BitVec.eq_of_getLsbD_eq
  intro i hi
  simp only [packA, BitVec.getLsbD_and, BitVec.getLsbD_append]
  by_cases h : i < 12
  · have : (0xF000#16).getLsbD i = false := by
      have : ∀ i < 12, (0xF000#16).getLsbD i = false := by decide
      exact this i h
    simp [h, this]
  · have : (0xF000#16).getLsbD i = true := by
      have : ∀ i < 16, ¬ i < 12 → (0xF000#16).getLsbD i = true := by decide
      exact this i hi h
    simp [h, this]

/-- The bits of a word of format XK under a mask of the group and the byte. -/
theorem packXK_and_key (g : Nibble) (x : Reg) (kk : Byte) :
    packXK g x kk &&& 0xF0FF#16 = packXK g 0 kk := by
  apply BitVec.eq_of_getLsbD_eq
  intro i hi
  have h0 : ∀ i < 16, (0xF0FF#16).getLsbD i = (decide (i < 8) || decide (12 ≤ i)) := by decide
  have hr : regBits 0 = 0#4 := by decide
  simp only [packXK, BitVec.getLsbD_and, BitVec.getLsbD_append, h0 i hi, hr]
  by_cases h : i < 8
  · simp [h, show i < 12 by omega]
  · by_cases h' : i < 12
    · simp [h, h']
    · simp [h']; omega

/-- The bits of a word of formats XY, XYF, XYN under a mask of the group and the low nibble. -/
theorem packXYN_and_key (g : Nibble) (x y : Reg) (n : Nibble) :
    packXYN g x y n &&& 0xF00F#16 = packXYN g 0 0 n := by
  apply BitVec.eq_of_getLsbD_eq
  intro i hi
  have h0 : ∀ i < 16, (0xF00F#16).getLsbD i = (decide (i < 4) || decide (12 ≤ i)) := by decide
  have hr : regBits 0 = 0#4 := by decide
  simp only [packXYN, BitVec.getLsbD_and, BitVec.getLsbD_append, h0 i hi, hr]
  by_cases h : i < 4
  · simp [h, show i < 8 by omega, show i < 12 by omega]
  · by_cases h' : i < 12
    · simp [h, h']
    · simp [h']; omega

theorem packXK_and_group (g : Nibble) (x : Reg) (kk : Byte) :
    packXK g x kk &&& 0xF000#16 = packA g 0#12 := packA_and_group g _

theorem packXYN_and_group (g : Nibble) (x y : Reg) (n : Nibble) :
    packXYN g x y n &&& 0xF000#16 = packA g 0#12 := packA_and_group g _

theorem Laws.Row.cls : Laws.Row.Statement .cls :=
  by unfold Laws.Row.Statement; decide
theorem Laws.Row.ret : Laws.Row.Statement .ret :=
  by unfold Laws.Row.Statement; decide
theorem Laws.Row.jp (nnn : Addr12) : Laws.Row.Statement (.jp nnn) :=
  ⟨packA_and_group _ _, by simp only [opcodeRow]; decide⟩
theorem Laws.Row.call (nnn : Addr12) : Laws.Row.Statement (.call nnn) :=
  ⟨packA_and_group _ _, by simp only [opcodeRow]; decide⟩
theorem Laws.Row.seImm (x : Reg) (kk : Byte) : Laws.Row.Statement (.seImm x kk) :=
  ⟨packXK_and_group _ _ _, by simp only [opcodeRow]; decide⟩
theorem Laws.Row.sneImm (x : Reg) (kk : Byte) : Laws.Row.Statement (.sneImm x kk) :=
  ⟨packXK_and_group _ _ _, by simp only [opcodeRow]; decide⟩
theorem Laws.Row.seReg (x y : Reg) : Laws.Row.Statement (.seReg x y) :=
  ⟨packXYN_and_group _ _ _ _, by simp only [opcodeRow]; decide⟩
theorem Laws.Row.ldImm (x : Reg) (kk : Byte) : Laws.Row.Statement (.ldImm x kk) :=
  ⟨packXK_and_group _ _ _, by simp only [opcodeRow]; decide⟩
theorem Laws.Row.addImm (x : Reg) (kk : Byte) : Laws.Row.Statement (.addImm x kk) :=
  ⟨packXK_and_group _ _ _, by simp only [opcodeRow]; decide⟩
theorem Laws.Row.ldReg (x y : Reg) : Laws.Row.Statement (.ldReg x y) :=
  ⟨packXYN_and_key _ _ _ _, by simp only [opcodeRow]; decide⟩
theorem Laws.Row.orReg (x y : Reg) : Laws.Row.Statement (.orReg x y) :=
  ⟨packXYN_and_key _ _ _ _, by simp only [opcodeRow]; decide⟩
theorem Laws.Row.andReg (x y : Reg) : Laws.Row.Statement (.andReg x y) :=
  ⟨packXYN_and_key _ _ _ _, by simp only [opcodeRow]; decide⟩
theorem Laws.Row.xorReg (x y : Reg) : Laws.Row.Statement (.xorReg x y) :=
  ⟨packXYN_and_key _ _ _ _, by simp only [opcodeRow]; decide⟩
theorem Laws.Row.addReg (x y : Reg) : Laws.Row.Statement (.addReg x y) :=
  ⟨packXYN_and_key _ _ _ _, by simp only [opcodeRow]; decide⟩
theorem Laws.Row.subReg (x y : Reg) : Laws.Row.Statement (.subReg x y) :=
  ⟨packXYN_and_key _ _ _ _, by simp only [opcodeRow]; decide⟩
theorem Laws.Row.shrReg (x y : Reg) : Laws.Row.Statement (.shrReg x y) :=
  ⟨packXYN_and_key _ _ _ _, by simp only [opcodeRow]; decide⟩
theorem Laws.Row.subnReg (x y : Reg) : Laws.Row.Statement (.subnReg x y) :=
  ⟨packXYN_and_key _ _ _ _, by simp only [opcodeRow]; decide⟩
theorem Laws.Row.shlReg (x y : Reg) : Laws.Row.Statement (.shlReg x y) :=
  ⟨packXYN_and_key _ _ _ _, by simp only [opcodeRow]; decide⟩
theorem Laws.Row.nop8Fn8 : Laws.Row.Statement .nop8Fn8 :=
  by unfold Laws.Row.Statement; decide
theorem Laws.Row.nop8Fn9 : Laws.Row.Statement .nop8Fn9 :=
  by unfold Laws.Row.Statement; decide
theorem Laws.Row.nop8FnA : Laws.Row.Statement .nop8FnA :=
  by unfold Laws.Row.Statement; decide
theorem Laws.Row.nop8FnB : Laws.Row.Statement .nop8FnB :=
  by unfold Laws.Row.Statement; decide
theorem Laws.Row.nop8FnC : Laws.Row.Statement .nop8FnC :=
  by unfold Laws.Row.Statement; decide
theorem Laws.Row.nop8FnD : Laws.Row.Statement .nop8FnD :=
  by unfold Laws.Row.Statement; decide
theorem Laws.Row.nop8FnF : Laws.Row.Statement .nop8FnF :=
  by unfold Laws.Row.Statement; decide
theorem Laws.Row.sneReg (x y : Reg) : Laws.Row.Statement (.sneReg x y) :=
  ⟨packXYN_and_group _ _ _ _, by simp only [opcodeRow]; decide⟩
theorem Laws.Row.ldI (nnn : Addr12) : Laws.Row.Statement (.ldI nnn) :=
  ⟨packA_and_group _ _, by simp only [opcodeRow]; decide⟩
theorem Laws.Row.jpV0 (nnn : Addr12) : Laws.Row.Statement (.jpV0 nnn) :=
  ⟨packA_and_group _ _, by simp only [opcodeRow]; decide⟩
theorem Laws.Row.rnd (x : Reg) (kk : Byte) : Laws.Row.Statement (.rnd x kk) :=
  ⟨packXK_and_group _ _ _, by simp only [opcodeRow]; decide⟩
theorem Laws.Row.drw (x y : Reg) (n : Nibble) : Laws.Row.Statement (.drw x y n) :=
  ⟨packXYN_and_group _ _ _ _, by simp only [opcodeRow]; decide⟩
theorem Laws.Row.skp (x : Reg) : Laws.Row.Statement (.skp x) :=
  ⟨packXK_and_key _ _ _, by simp only [opcodeRow]; decide⟩
theorem Laws.Row.sknp (x : Reg) : Laws.Row.Statement (.sknp x) :=
  ⟨packXK_and_key _ _ _, by simp only [opcodeRow]; decide⟩
theorem Laws.Row.ldVxDt (x : Reg) : Laws.Row.Statement (.ldVxDt x) :=
  ⟨packXK_and_key _ _ _, by simp only [opcodeRow]; decide⟩
theorem Laws.Row.ldVxK (x : Reg) : Laws.Row.Statement (.ldVxK x) :=
  ⟨packXK_and_key _ _ _, by simp only [opcodeRow]; decide⟩
theorem Laws.Row.ldDtVx (x : Reg) : Laws.Row.Statement (.ldDtVx x) :=
  ⟨packXK_and_key _ _ _, by simp only [opcodeRow]; decide⟩
theorem Laws.Row.ldStVx (x : Reg) : Laws.Row.Statement (.ldStVx x) :=
  ⟨packXK_and_key _ _ _, by simp only [opcodeRow]; decide⟩
theorem Laws.Row.addIVx (x : Reg) : Laws.Row.Statement (.addIVx x) :=
  ⟨packXK_and_key _ _ _, by simp only [opcodeRow]; decide⟩
theorem Laws.Row.ldFVx (x : Reg) : Laws.Row.Statement (.ldFVx x) :=
  ⟨packXK_and_key _ _ _, by simp only [opcodeRow]; decide⟩
theorem Laws.Row.ldBVx (x : Reg) : Laws.Row.Statement (.ldBVx x) :=
  ⟨packXK_and_key _ _ _, by simp only [opcodeRow]; decide⟩
theorem Laws.Row.storeRegs (x : Reg) : Laws.Row.Statement (.storeRegs x) :=
  ⟨packXK_and_key _ _ _, by simp only [opcodeRow]; decide⟩
theorem Laws.Row.loadRegs (x : Reg) : Laws.Row.Statement (.loadRegs x) :=
  ⟨packXK_and_key _ _ _, by simp only [opcodeRow]; decide⟩
theorem Laws.Row.nop0 : Laws.Row.Statement .nop0 :=
  by unfold Laws.Row.Statement; decide
theorem Laws.Row.unknownE (x : Reg) (kk : Byte) : Laws.Row.Statement (.unknownE x kk) :=
  ⟨packXK_and_group _ _ _, by simp only [opcodeRow]; decide⟩
theorem Laws.Row.unknownF (x : Reg) (kk : Byte) : Laws.Row.Statement (.unknownF x kk) :=
  ⟨packXK_and_group _ _ _, by simp only [opcodeRow]; decide⟩

end Sys2Proof
end

