-- ==== Sys2Proof/Laws/Transfer.lean ====
section
/-! SUPPORT. The block transfers between registers and memory, each said once: what a run of stores or
loads leaves, and where it faults (spec/43_index_and_memory.md R108-R110, 60_exceptions.md R152). -/

namespace Sys2Proof.Machine

/-- A run of stores inside memory writes the bytes at consecutive addresses and nothing else (R40, R44). -/
theorem State.storeBytes_ok {s : State} {a : Nat} {bs : List Byte} (h : a + bs.length ≤ memSize) :
    s.storeBytes a bs = .ok (s.setMem (Memory.writeAll s.mem a bs)) := by
  induction bs generalizing s a with
  | nil => rfl
  | cons b bs ih =>
    simp only [List.length_cons] at h
    rw [State.storeBytes, State.writeMem_ok (by omega)]
    exact ih (by omega)

/-- A run of stores that leaves memory faults with the first address out of range (R40, R152). -/
theorem State.storeBytes_error {s : State} {a : Nat} {bs : List Byte} (hne : bs ≠ [])
    (h : memSize < a + bs.length) : s.storeBytes a bs = .error (.memoryOutOfRange (max a memSize)) := by
  induction bs generalizing s a with
  | nil => exact absurd rfl hne
  | cons b bs ih =>
    simp only [List.length_cons] at h
    by_cases ha : memSize ≤ a
    · rw [State.storeBytes, State.writeMem_error ha, Nat.max_eq_left ha]
    · rw [State.storeBytes, State.writeMem_ok (by omega)]
      have hbs : bs ≠ [] := by rintro rfl; simp at h; omega
      refine (ih hbs (by omega)).trans ?_
      rw [Nat.max_eq_right (by omega), Nat.max_eq_right (by omega)]

/-- The listed registers are numbered `k`, `k + 1`, ... -/
def RegRun (k : Nat) (rs : List Reg) : Prop := ∀ n (h : n < rs.length), rs[n].val = k + n

theorem RegRun.head {k : Nat} {r : Reg} {rs : List Reg} (h : RegRun k (r :: rs)) : r.val = k :=
  h 0 (by simp)

theorem RegRun.tail {k : Nat} {r : Reg} {rs : List Reg} (h : RegRun k (r :: rs)) : RegRun (k + 1) rs := by
  intro n hn
  have := h (n + 1) (by simpa using hn)
  simpa [Nat.add_assoc, Nat.add_comm 1] using this

theorem length_regsThrough (x : Reg) : (regsThrough x).length = x.val + 1 := by
  simp [regsThrough]

theorem regRun_regsThrough (x : Reg) : RegRun 0 (regsThrough x) := by
  intro n hn
  simp [regsThrough]

theorem mem_regsThrough {x r : Reg} : r ∈ regsThrough x ↔ r ≤ x := by
  rw [List.mem_iff_getElem]
  constructor
  · rintro ⟨n, hn, rfl⟩
    have := regRun_regsThrough x n hn
    rw [length_regsThrough] at hn
    rw [Fin.le_def]; omega
  · intro h
    have hn : r.val < (regsThrough x).length := by
      rw [length_regsThrough]; have := Fin.le_def.1 h; omega
    exact ⟨r.val, hn, Fin.ext (by simpa using regRun_regsThrough x r.val hn)⟩

/-- Storing registers numbered from `k` is a run of stores from I + k (R109). -/
theorem State.storeEach_eq {s : State} {k : Nat} {rs : List Reg} (h : RegRun k rs) :
    s.storeEach rs = s.storeBytes (s.indexed k) (rs.map s.getV) := by
  induction rs generalizing s k with
  | nil => rfl
  | cons r rs ih =>
    rw [List.map_cons, State.storeEach, State.storeBytes, h.head]
    by_cases hk : memSize ≤ s.indexed k
    · rw [State.writeMem_error hk]
    · rw [State.writeMem_ok (by omega)]
      exact ih h.tail

/-- Loading registers whose addresses are inside memory gives each listed register its byte and leaves the
other registers and everything else alone (R110). -/
theorem State.loadEach_ok {s : State} {rs : List Reg} (h : ∀ r ∈ rs, s.indexed r.val < memSize) :
    ∃ v', s.loadEach rs = .ok { s with v := v' } ∧
      ∀ q : Reg, v'[q.val] = if q ∈ rs then Memory.read s.mem (s.indexed q.val) else s.getV q := by
  induction rs generalizing s with
  | nil => exact ⟨s.v, rfl, fun q => by simp [State.getV]⟩
  | cons r rs ih =>
    rw [State.loadEach, State.readMem_ok (h r (by simp))]
    obtain ⟨v', h1, h2⟩ := ih (s := s.setV r (Memory.read s.mem (s.indexed r.val)))
      (fun q hq => h q (by simp [hq]))
    refine ⟨v', h1, fun q => ?_⟩
    rw [h2 q, State.getV_setV]
    by_cases hq : q = r
    · subst hq; simp [State.indexed]
    · simp [hq, State.indexed]

/-- Loading registers numbered from `k` that leaves memory faults with the first address out of range
(R110, R152). -/
theorem State.loadEach_error {s : State} {k : Nat} {rs : List Reg} (hr : RegRun k rs) (hne : rs ≠ [])
    (h : memSize < s.indexed k + rs.length) :
    s.loadEach rs = .error (.memoryOutOfRange (max (s.indexed k) memSize)) := by
  induction rs generalizing s k with
  | nil => exact absurd rfl hne
  | cons r rs ih =>
    simp only [List.length_cons] at h
    rw [State.loadEach, hr.head]
    by_cases hk : memSize ≤ s.indexed k
    · rw [State.readMem_error hk, Nat.max_eq_left hk]
    · rw [State.readMem_ok (by omega)]
      have hrs : rs ≠ [] := by rintro rfl; simp at h; omega
      refine (ih hr.tail hrs (by simp [State.indexed] at h ⊢; omega)).trans ?_
      simp only [State.indexed, State.setV_i] at hk ⊢
      rw [Nat.max_eq_right (by omega), Nat.max_eq_right (by omega)]

end Sys2Proof.Machine
end

