-- ==== Sys2Proof/Tests/Slice0.lean ====
section
/-! SUPPORT. Tests of the model, each on one step of a small state, with the expected values of
spec/95_test_vectors.md (the vector's name stands in the docstring) or worked out by hand from the rule
named; the smoke test of well-formedness; and for every obligation with hypotheses a witness that meets
them. -/

namespace Sys2Proof.Tests

open Sys2Proof.Machine

/-! ### Helpers -/

/-- The next state of an outcome. -/
def nextOf : Host.Outcome State Fault Refusal → Option State
  | .next s => some s
  | .fault _ => none
  | .refused _ => none

/-- The fault of an outcome. -/
def faultOf : Host.Outcome State Fault Refusal → Option Fault
  | .next _ => none
  | .fault f => some f
  | .refused _ => none

/-- The refusal of an outcome. -/
def refusalOf : Host.Outcome State Fault Refusal → Option Refusal
  | .next _ => none
  | .fault _ => none
  | .refused r => some r

/-- The start state of the vectors: the core as constructed with the default parameters. -/
def fresh : State := State.constructed Config.standard

/-- `fresh` under `FLAG_DEST_POLICY = open`. -/
def freshOpen : State := State.constructed { Config.standard with flagDest := .openDraw }

/-- `s` with the word `w` at PC, the vectors' "word w". -/
def withWord (s : State) (w : Nat) : State := s.withFetchWord 16 w

/-- The state after one tick on the word `w`, seen through `view`. -/
def tickView {α : Type} (s : State) (w : Nat) (view : State → α) : Option α :=
  (nextOf (step (withWord s w))).map view

/-- The fault of one tick on the word `w`. -/
def tickFault (s : State) (w : Nat) : Option Fault := faultOf (step (withWord s w))

/-- `s` with `bytes` in memory from `a` on. -/
def withBytes (s : State) (a : Nat) (bytes : List Byte) : State :=
  s.setMem (Memory.writeAll s.mem a bytes)

/-- The bytes of memory from `a` on. -/
def bytesAt (s : State) (a n : Nat) : List Byte := (List.range n).map fun k => Memory.read s.mem (a + k)

/-- The cells of the framebuffer from `k` on. -/
def cellsAt (s : State) (k n : Nat) : List Byte := (List.range n).map fun j => s.getFb (k + j)

/-! ### Well-formedness: one ill-formed term for each check, refused -/

theorem test_wellFormed_unknownE :
    (Instr.unknownE 3 0x9E).wellFormed = false ∧ (Instr.unknownE 3 0xA1).wellFormed = false ∧
      (Instr.unknownE 3 0x9F).wellFormed = true := by decide

theorem test_wellFormed_unknownF :
    (Instr.unknownF 3 0x07).wellFormed = false ∧ (Instr.unknownF 3 0x0A).wellFormed = false ∧
      (Instr.unknownF 3 0x15).wellFormed = false ∧ (Instr.unknownF 3 0x18).wellFormed = false ∧
      (Instr.unknownF 3 0x1E).wellFormed = false ∧ (Instr.unknownF 3 0x29).wellFormed = false ∧
      (Instr.unknownF 3 0x33).wellFormed = false ∧ (Instr.unknownF 3 0x55).wellFormed = false ∧
      (Instr.unknownF 3 0x65).wellFormed = false ∧ (Instr.unknownF 3 0x0B).wellFormed = true := by decide

/-! ### Decoding: a word of every constructor, written out from 30_encoding.md R64 -/

theorem test_decode_group0 :
    decodeWord .byte 0b0000000011100000#16 = .cls ∧ decodeWord .byte 0b0000000011101110#16 = .ret ∧
      decodeWord .byte 0b0000000100100011#16 = .nop0 := by decide

/-- T-5, T-5b, T-5c: group 0 under each `GROUP0_KEY`. -/
theorem test_decode_group0_keys :
    (decodeWord .byte 0x01E0, decodeWord .nibble 0x01E0, decodeWord .addr 0x01E0) = (.cls, .cls, .nop0) ∧
      (decodeWord .byte 0x0010, decodeWord .nibble 0x0010, decodeWord .addr 0x0010) = (.nop0, .cls, .nop0) ∧
      (decodeWord .byte 0x0A0E, decodeWord .nibble 0x0A0E, decodeWord .addr 0x0A0E) =
        (.nop0, .ret, .nop0) := by decide

theorem test_decode_jumps :
    decodeWord .byte 0b0001101010111100#16 = .jp 0xABC ∧
      decodeWord .byte 0b0010010001010110#16 = .call 0x456 ∧
      decodeWord .byte 0b1011001100000001#16 = .jpV0 0x301 := by decide

theorem test_decode_skips :
    decodeWord .byte 0b0011001000110011#16 = .seImm 2 0x33 ∧
      decodeWord .byte 0b0100001000110011#16 = .sneImm 2 0x33 ∧
      decodeWord .byte 0b0101000000000001#16 = .seReg 0 0 ∧
      decodeWord .byte 0b0101000100100000#16 = .seReg 1 2 ∧
      decodeWord .byte 0b1001000100101111#16 = .sneReg 1 2 := by decide

theorem test_decode_loads :
    decodeWord .byte 0b0110101001011100#16 = .ldImm 10 0x5C ∧
      decodeWord .byte 0b0111000100000001#16 = .addImm 1 0x01 ∧
      decodeWord .byte 0b1100000100001111#16 = .rnd 1 0x0F ∧
      decodeWord .byte 0b1010000100100011#16 = .ldI 0x123 := by decide

theorem test_decode_group8 :
    decodeWord .byte 0b1000000100100000#16 = .ldReg 1 2 ∧ decodeWord .byte 0b1000000100100001#16 = .orReg 1 2 ∧
      decodeWord .byte 0b1000000100100010#16 = .andReg 1 2 ∧
      decodeWord .byte 0b1000000100100011#16 = .xorReg 1 2 ∧
      decodeWord .byte 0b1000000100100100#16 = .addReg 1 2 ∧
      decodeWord .byte 0b1000000100100101#16 = .subReg 1 2 ∧
      decodeWord .byte 0b1000000100100110#16 = .shrReg 1 2 ∧
      decodeWord .byte 0b1000000100100111#16 = .subnReg 1 2 ∧
      decodeWord .byte 0b1000000100101110#16 = .shlReg 1 2 := by decide

theorem test_decode_group8_noops :
    decodeWord .byte 0x8128 = .nop8Fn8 ∧ decodeWord .byte 0x8129 = .nop8Fn9 ∧
      decodeWord .byte 0x812A = .nop8FnA ∧ decodeWord .byte 0x812B = .nop8FnB ∧
      decodeWord .byte 0x812C = .nop8FnC ∧ decodeWord .byte 0x812D = .nop8FnD ∧
      decodeWord .byte 0x812F = .nop8FnF := by decide

theorem test_decode_draw : decodeWord .byte 0b1101000000010010#16 = .drw 0 1 2 := by decide

theorem test_decode_keys_timers :
    decodeWord .byte 0b1110000110011110#16 = .skp 1 ∧ decodeWord .byte 0b1110000110100001#16 = .sknp 1 ∧
      decodeWord .byte 0b1111001100000111#16 = .ldVxDt 3 ∧
      decodeWord .byte 0b1111001100001010#16 = .ldVxK 3 ∧
      decodeWord .byte 0b1111001000010101#16 = .ldDtVx 2 ∧
      decodeWord .byte 0b1111001000011000#16 = .ldStVx 2 := by decide

theorem test_decode_index :
    decodeWord .byte 0b1111010000011110#16 = .addIVx 4 ∧ decodeWord .byte 0b1111010000101001#16 = .ldFVx 4 ∧
      decodeWord .byte 0b1111010000110011#16 = .ldBVx 4 ∧
      decodeWord .byte 0b1111010001010101#16 = .storeRegs 4 ∧
      decodeWord .byte 0b1111010001100101#16 = .loadRegs 4 := by decide

/-- T-2, T-3. -/
theorem test_decode_unknown :
    decodeWord .byte 0xE19F = .unknownE 1 0x9F ∧ decodeWord .byte 0xF0FF = .unknownF 0 0xFF := by decide

/-- The bytes of a word stand high byte first (R42); a lone byte is no instruction (R53). -/
theorem test_decode_bytes :
    decode .byte [0x12, 0x34, 0x56] = .ok (.jp 0x234, [0x56]) ∧ decode .byte [0x12] = .error .truncated := by
  decide

theorem test_decodeTableWord :
    decodeTableWord 16 0xD012 = some (.drw 0 1 2) ∧ decodeTableWord 16 0x00EE = some .ret ∧
      decodeTableWord 24 0x00EE = none := by decide

theorem test_encode_bytes : encodeBytes (.call 0x456) = [0x24, 0x56] := by decide

/-! ### Reset and the placing of a word -/

/-- R36, R37: the values the spec gives. -/
theorem test_reset :
    (State.reset.pc, State.reset.sp.toInt, State.reset.dirty, State.reset.kblock) =
      (0x200#16, -1, true, KeyBlock.idle) := by decide

theorem test_withFetchWord_runs_first :
    tickView State.reset 0x6A5C (fun t => (t.getV 10, t.pc, t.lastInsn)) = some (0x5C, 0x202, 0x6A5C) := by
  decide

/-- H-2: from reset with nothing placed the core executes NOP0 (R171). -/
theorem test_reset_executes_nop0 :
    (nextOf (step State.reset)).map (fun t => (t.pc, t.lastInsn, t.result)) =
      some (0x202, 0x0000, TickResult.ok) := by decide

/-! ### The tick -/

/-- T-7 with a word that does nothing else: the timer step, floor 0 (T-9). -/
theorem test_tick_timers :
    tickView ((fresh.setDt 3).setSt 1) 0x0123 (fun t => (t.dt, t.st)) = some (2, 0) ∧
      tickView fresh 0x6000 (fun t => t.dt) = some 0 := by decide

/-- T-8: a fetch at 0xFFF faults with 0x1000. -/
theorem test_fetch_fault :
    faultOf (step (fresh.setPc 0xFFF)) = some (.memoryOutOfRange 0x1000) ∧
      faultOf (step (fresh.setPc 0x10FE)) = some (.memoryOutOfRange 0x10FE) := by decide

/-- T-4 and T-6, and the other tolerated no-ops. -/
theorem test_noops :
    tickView ((fresh.setV 1 7).setV 15 9) 0x8128 (fun t => (t.getV 1, t.getV 15, t.pc)) =
        some (7, 9, 0x202) ∧
      tickView fresh 0x0123 (fun t => (t.pc, t.result)) = some (0x202, TickResult.ok) := by decide

theorem test_noops_rest :
    tickView fresh 0x8129 (fun t => (t.pc, t.result)) = some (0x202, TickResult.ok) ∧
      tickView fresh 0x812A (fun t => (t.pc, t.result)) = some (0x202, TickResult.ok) ∧
      tickView fresh 0x812B (fun t => (t.pc, t.result)) = some (0x202, TickResult.ok) ∧
      tickView fresh 0x812C (fun t => (t.pc, t.result)) = some (0x202, TickResult.ok) ∧
      tickView fresh 0x812D (fun t => (t.pc, t.result)) = some (0x202, TickResult.ok) ∧
      tickView fresh 0x812F (fun t => (t.pc, t.result)) = some (0x202, TickResult.ok) := by decide

/-- T-1, T-7. -/
theorem test_unknownE :
    tickView ((fresh.setDt 3).setSt 1) 0xE000 (fun t => (t.result, t.pc, t.lastInsn, t.dt, t.st)) =
      some (TickResult.unknownOpcode 0xE000 0x200, 0x202, 0xE000, 2, 0) := by decide

/-- T-2. -/
theorem test_unknownF :
    tickView fresh 0xF0FF (fun t => (t.result, t.pc)) =
      some (TickResult.unknownOpcode 0xF0FF 0x200, 0x202) := by decide

/-! ### Control flow -/

/-- CF-1. -/
theorem test_jp : tickView fresh 0x1ABC (fun t => t.pc) = some 0xABC := by decide

/-- CF-3. -/
theorem test_call :
    tickView fresh 0x2456 (fun t => (t.sp.toInt, t.getStack 0, t.pc)) = some (0, 0x202, 0x456) := by decide

/-- CF-4, the seventeenth tick. -/
theorem test_call_overflow : tickFault (fresh.setSp (.top 15)) 0x2200 = some .stackOverflow := by decide

/-- S-9, the second tick: the slot keeps its value. -/
theorem test_ret :
    tickView ((fresh.setSp (.top 0)).setStack 0 0x202) 0x00EE (fun t => (t.pc, t.sp.toInt, t.getStack 0)) =
      some (0x202, -1, 0x202) := by decide

/-- CF-5. -/
theorem test_ret_underflow : tickFault fresh 0x00EE = some .stackUnderflow := by decide

/-- CF-6, CF-7. -/
theorem test_jpV0 :
    tickView (fresh.setV 0 0xFF) 0xBFFF (fun t => t.pc) = some 0x10FE ∧
      tickView (fresh.setV 0 0x04) 0xB300 (fun t => t.pc) = some 0x304 := by decide

/-- CF-8, CF-9. -/
theorem test_seImm :
    tickView (fresh.setV 2 0x33) 0x3233 (fun t => t.pc) = some 0x204 ∧
      tickView (fresh.setV 2 0x32) 0x3233 (fun t => t.pc) = some 0x202 := by decide

/-- CF-10. -/
theorem test_sneImm :
    tickView (fresh.setV 2 0x32) 0x4233 (fun t => t.pc) = some 0x204 ∧
      tickView (fresh.setV 2 0x33) 0x4233 (fun t => t.pc) = some 0x202 := by decide

/-- CF-11, S-11. -/
theorem test_seReg :
    tickView ((fresh.setV 1 7).setV 2 7) 0x5120 (fun t => t.pc) = some 0x204 ∧
      tickView fresh 0x5001 (fun t => (t.pc, t.result)) = some (0x204, TickResult.ok) := by decide

/-- CF-12, CF-13. -/
theorem test_sneReg :
    tickView ((fresh.setV 1 1).setV 2 2) 0x912F (fun t => t.pc) = some 0x204 ∧
      tickView ((fresh.setV 1 7).setV 2 7) 0x9120 (fun t => t.pc) = some 0x202 := by decide

/-! ### Arithmetic and logic -/

/-- A-1. -/
theorem test_ldImm : tickView fresh 0x6A5C (fun t => t.getV 10) = some 0x5C := by decide

/-- A-2. -/
theorem test_ldReg : tickView (fresh.setV 2 0x99) 0x8120 (fun t => t.getV 1) = some 0x99 := by decide

/-- A-3: no carry flag. -/
theorem test_addImm :
    tickView ((fresh.setV 1 0xFF).setV 15 5) 0x7101 (fun t => (t.getV 1, t.getV 15)) = some (0, 5) := by
  decide

/-- A-6 and S-2's second case. -/
theorem test_addReg :
    tickView ((fresh.setV 1 0xF0).setV 2 0x20) 0x8124 (fun t => (t.getV 1, t.getV 15)) = some (0x10, 1) ∧
      tickView ((fresh.setV 1 0x10).setV 2 0x20) 0x8124 (fun t => (t.getV 1, t.getV 15)) = some (0x30, 0) := by
  decide

/-- A-7: with x = F the result wins under `flag_then_result`. -/
theorem test_addReg_vf :
    tickView ((fresh.setV 15 0xFF).setV 2 1) 0x8F24 (fun t => t.getV 15) = some 0 := by decide

/-- A-8, A-10: strict comparison. -/
theorem test_subReg :
    tickView ((fresh.setV 1 7).setV 2 7) 0x8125 (fun t => (t.getV 1, t.getV 15)) = some (0, 0) ∧
      tickView ((fresh.setV 1 3).setV 2 5) 0x8125 (fun t => (t.getV 1, t.getV 15)) = some (0xFE, 0) := by
  decide

/-- A-9 under both comparisons. -/
theorem test_subReg_compare :
    tickView ((fresh.setV 1 0x80).setV 2 1) 0x8125 (fun t => (t.getV 1, t.getV 15)) = some (0x7F, 1) ∧
      tickView (((State.constructed { Config.standard with subCompare := .signed8 }).setV 1 0x80).setV 2 1)
        0x8125 (fun t => (t.getV 1, t.getV 15)) = some (0x7F, 0) := by decide

/-- A-11, A-12. -/
theorem test_subnReg :
    tickView ((fresh.setV 1 3).setV 2 5) 0x8127 (fun t => (t.getV 1, t.getV 15)) = some (2, 1) ∧
      tickView ((fresh.setV 1 5).setV 2 3) 0x8127 (fun t => (t.getV 1, t.getV 15)) = some (0xFE, 0) := by
  decide

/-- A-14. -/
theorem test_orReg :
    tickView ((fresh.setV 1 0x0F).setV 2 0xF0) 0x8121 (fun t => (t.getV 1, t.getV 15)) = some (0xFF, 0) := by
  decide

/-- A-15. -/
theorem test_andReg :
    tickView ((fresh.setV 1 0x3C).setV 2 0x0F) 0x8122 (fun t => (t.getV 1, t.getV 15)) = some (0x0C, 0) := by
  decide

/-- A-16, A-17. -/
theorem test_xorReg :
    tickView ((fresh.setV 1 0xFF).setV 2 0x0F) 0x8123 (fun t => t.getV 1) = some 0xF0 ∧
      tickView (fresh.setV 1 0x5A) 0x8113 (fun t => t.getV 1) = some 0 := by decide

/-- A-18, A-21. -/
theorem test_shrReg :
    tickView ((fresh.setV 1 5).setV 2 0xAA) 0x8126 (fun t => (t.getV 1, t.getV 15)) = some (2, 1) ∧
      tickView (fresh.setV 15 3) 0x8F06 (fun t => t.getV 15) = some 1 := by decide

/-- A-22, A-25: the flag is 0x80, and with x = F the result wins. -/
theorem test_shlReg :
    tickView (fresh.setV 1 0x81) 0x810E (fun t => (t.getV 1, t.getV 15)) = some (2, 0x80) ∧
      tickView (fresh.setV 15 0x81) 0x8F0E (fun t => t.getV 15) = some 2 := by decide

/-- A-27: whatever the byte drawn. -/
theorem test_rnd : tickView (fresh.setV 1 9) 0xC100 (fun t => (t.draws, t.getV 15)) = some (1, 0) := by decide

/-- R91 under `open`: one free byte is taken with x = F, none otherwise. -/
theorem test_open_flag :
    tickView freshOpen 0x8F24 (fun t => t.draws) = some 1 ∧
      tickView (freshOpen.setV 1 0xFF) 0x8114 (fun t => (t.draws, t.getV 1, t.getV 15)) =
        some (0, 0xFE, 1) := by decide

/-! ### Index register and memory -/

/-- M-1. -/
theorem test_ldI : tickView fresh 0xA123 (fun t => t.i) = some 0x123 := by decide

/-- M-4: no wrap at 0x1000, no flag. -/
theorem test_addIVx :
    tickView (((fresh.setI 0xFFF).setV 0 0x10).setV 15 7) 0xF01E (fun t => (t.i, t.getV 15)) =
      some (0x100F, 7) := by decide

/-- M-2, M-3. -/
theorem test_addIVx_overflow :
    tickView (fresh.setI 0xFFFF) 0xF01E (fun t => t.i) = some 0xFFFF ∧
      tickFault ((fresh.setI 0xFFFF).setV 0 1) 0xF01E = some .indexOverflow := by decide

/-- M-5, M-6. -/
theorem test_ldFVx :
    tickView (fresh.setV 0 0x0A) 0xF029 (fun t => t.i) = some 0x032 ∧
      tickView (fresh.setV 0 0xFF) 0xF029 (fun t => t.i) = some 0x4FB := by decide

/-- S-5. -/
theorem test_ldBVx :
    tickView ((fresh.setI 0x300).setV 0 0xEA) 0xF033 (fun t => (bytesAt t 0x300 4, t.i)) =
      some ([2, 3, 4, 0], 0x300) := by decide

/-- M-11. -/
theorem test_ldBVx_fault :
    tickFault ((fresh.setI 0xFFE).setV 0 1) 0xF033 = some (.memoryOutOfRange 0x1000) := by decide

/-- M-12. -/
theorem test_storeRegs :
    tickView (((fresh.setI 0xFFE).setV 0 1).setV 1 2) 0xF155 (fun t => (bytesAt t 0xFFE 2, t.i)) =
      some ([1, 2], 0xFFE) := by decide

/-- M-13. -/
theorem test_storeRegs_fault : tickFault (fresh.setI 0xFFE) 0xF255 = some (.memoryOutOfRange 0x1000) := by
  decide

/-- M-14, with V0..V3 loaded and V4 kept. -/
theorem test_loadRegs :
    tickView (withBytes ((fresh.setI 0x300).setV 4 9) 0x300 [1, 2, 3, 4, 5]) 0xF365
      (fun t => (t.getV 0, t.getV 3, t.getV 4, t.i)) = some (1, 4, 9, 0x300) := by decide

/-- R110, R152. -/
theorem test_loadRegs_fault : tickFault (fresh.setI 0xFFF) 0xF165 = some (.memoryOutOfRange 0x1000) := by
  decide

/-! ### Display -/

/-- D-14. -/
theorem test_cls :
    tickView ((fresh.setFb 5 1).setV 15 3) 0x00E0 (fun t => (t.getFb 5, t.dirty, t.getV 15)) =
      some (0, true, 3) := by decide

/-- The state of D-1. -/
def spriteRow : State := withBytes (fresh.setI 0x300) 0x300 [0xFF]

/-- D-1. -/
theorem test_drw :
    tickView spriteRow 0xD011 (fun t => (cellsAt t 0 9, t.getV 15, t.dirty)) =
      some ([0x80, 0x40, 0x20, 0x10, 8, 4, 2, 1, 0], 0, true) := by decide

/-- S-7 and D-5: clipped at column 64, row 1 untouched. -/
theorem test_drw_clips :
    tickView (spriteRow.setV 0 60) 0xD011 (fun t => (cellsAt t 59 6, t.getV 15)) =
      some ([0, 0x80, 0x40, 0x20, 0x10, 0], 0) := by decide

/-- D-6, D-8. -/
theorem test_drw_off_screen :
    tickView ((spriteRow.setV 0 64).setV 15 5) 0xD011 (fun t => (t.fb, t.getV 15, t.dirty)) =
        some ([], 5, true) ∧
      tickView (spriteRow.setV 15 5) 0xD010 (fun t => (t.fb, t.getV 15, t.dirty)) = some ([], 5, true) := by
  decide

/-- D-10, D-11: the weight follows the sprite column. -/
theorem test_drw_weights :
    tickView (withBytes (((fresh.setI 0x300).setFb 1 0x80).setV 0 1) 0x300 [0x80]) 0xD021
        (fun t => (t.fb, t.getV 15)) = some ([], 1) ∧
      tickView (withBytes ((fresh.setI 0x300).setFb 1 0x80) 0x300 [0x40]) 0xD011
        (fun t => (t.fb, t.getV 15)) = some ([(1, 0xC0)], 1) := by decide

/-- D-12, D-13: the row is read before its clip test. -/
theorem test_drw_fault :
    tickFault ((fresh.setI 0xFFF).setV 1 31) 0xD012 = some (.memoryOutOfRange 0x1000) ∧
      tickView ((fresh.setI 0xFFE).setV 1 31) 0xD013 (fun t => t.result) = some TickResult.ok := by decide

/-- R115, D3: the refusal under `open`. -/
theorem test_drw_refused :
    refusalOf (step (withWord freshOpen 0xDF11)) = some .drawCoordinateInVF ∧
      refusalOf (step (withWord freshOpen 0xD0F1)) = some .drawCoordinateInVF := by decide

/-! ### Keypad and timers -/

/-- K-2, K-3. -/
theorem test_skp :
    tickView ((fresh.setV 1 5).setKey 5 true) 0xE19E (fun t => t.pc) = some 0x204 ∧
      tickView (fresh.setV 1 5) 0xE19E (fun t => t.pc) = some 0x202 := by decide

/-- K-4, K-5. -/
theorem test_sknp :
    tickView (fresh.setV 1 5) 0xE1A1 (fun t => t.pc) = some 0x204 ∧
      tickFault (fresh.setV 1 0x10) 0xE1A1 = some (.keyIndexOutOfRange 0x10) := by decide

/-- K-10. -/
theorem test_ldVxDt : tickView (fresh.setDt 0x10) 0xF307 (fun t => t.getV 3) = some 0x0F := by decide

/-- K-11, the second tick: the write comes after the decrement. -/
theorem test_ldDtVx :
    tickView ((fresh.setV 0 0x10).setDt 3) 0xF015 (fun t => t.dt) = some 0x10 := by decide

/-- K-12, K-13. -/
theorem test_ldStVx :
    tickView (fresh.setV 2 1) 0xF218 (fun t => (t.st, soundOn t)) = some (1, true) ∧
      tickView (fresh.setSt 5) 0xF218 (fun t => (t.st, soundOn t)) = some (0, false) := by decide

/-- K-1, its first tick and tick N + 1. -/
theorem test_ldVxK_waits :
    tickView fresh 0xF30A (fun t => (t.kblock, t.pc, t.getV 3)) = some (.locked, 0x200, 0) ∧
      tickView ((fresh.setKblock .waitingForRelease).setLastKey 5) 0xF30A
        (fun t => (t.kblock, t.pc, t.getV 3)) = some (.unlocked, 0x200, 0) := by decide

/-- K-9. -/
theorem test_ldVxK_commits :
    tickView ((fresh.setKblock .unlocked).setLastKey 9) 0xF60A (fun t => (t.getV 6, t.kblock, t.pc)) =
      some (9, .idle, 0x202) := by decide

/-! ### The host -/

/-- H-3, H-4. -/
theorem test_keySet :
    (nextOf (performHostOp (.keySet 3 true) (fresh.setKblock .locked))).map
        (fun t => (t.getKey 3, t.kblock, t.lastKey)) = some (true, .waitingForRelease, 3) ∧
      (nextOf (performHostOp (.keySet 3 true) fresh)).map (fun t => (t.getKey 3, t.kblock, t.lastKey)) =
        some (true, .idle, 0) := by decide

/-- H-5, H-8. -/
theorem test_host_refusals :
    refusalOf (performHostOp (.keySet 0x10 true) fresh) = some (.keyCodeOutOfRange 0x10) ∧
      refusalOf (hostConstruct { Config.standard with origin := 0xFFF }) = some .originOutOfRange ∧
      (nextOf (hostConstruct { Config.standard with origin := 0xFFE })).map (fun t => t.pc) =
        some 0xFFE := by decide

/-- V2, I and memory as at the end of program P2, in part. -/
def endOfP2 : State := withBytes ((((fresh.setV 2 4).setI 0x300).setPc 0x206).advance 0x00EE) 0x300 [2, 3, 4]

/-- H-1: reset keeps V, I and LASTINSN and clears memory. -/
theorem test_hostReset :
    ((hostReset endOfP2).getV 2, (hostReset endOfP2).i, (hostReset endOfP2).lastInsn) =
        (4, 0x300, 0x00EE) ∧
      ((hostReset endOfP2).pc, bytesAt (hostReset endOfP2) 0x300 3, (hostReset endOfP2).dirty) =
        (0x200, [0, 0, 0], true) := by decide

/-- A host transaction that is due is the next step, and the tick after it fetches. -/
theorem test_due :
    (nextOf (step { fresh with script := [(0, .load [0x12, 0x34]), (1, .clearDirty)] })).map
        (fun t => (bytesAt t 0x200 2, t.ticks, t.script)) =
      some ([0x12, 0x34], 0, [(1, .clearDirty)]) := by decide

/-- R172, R173: a script that is not in tick order delivers each event at its tag. -/
theorem test_due_any_order :
    (nextOf (step { fresh with script := [(7, .reset), (0, .keySet 3 true)] })).map
        (fun t => (t.getKey 3, t.ticks, t.script)) = some (true, 0, [(7, .reset)]) := by decide

/-- CF-2, R173: at the self-jump a run has ended. -/
theorem test_atEnd :
    (withWord fresh 0x1200).atEnd 0x200 = true ∧ (withWord fresh 0x1202).atEnd 0x200 = false := by decide

/-- R173: an end address is at most 0xFFE, in the image, with the self-jump there. -/
theorem test_mayEndAt :
    (withBytes fresh 0x200 [0x12, 0x00]).mayEndAt [0x12, 0x00] 0x200 = true ∧
      (withBytes fresh 0x202 [0x12, 0x02]).mayEndAt [0x12, 0x00] 0x202 = false ∧
      (withBytes fresh 0x200 [0x12, 0x02]).mayEndAt [0x12, 0x02] 0x200 = false ∧
      (withBytes (fresh.setPc 0xFFE) 0xFFF [0x1F]).mayEndAt [0x1F] 0xFFF = false := by decide

/-- Whether a run observes a normal end, and whether it refuses its end address. -/
def runView : RunOutcome → Bool × Bool
  | .done _ => (true, false)
  | .refused r => (false, r == .endAddressInadmissible)
  | .error _ _ _ => (false, false)
  | .fault _ => (false, false)
  | .running _ => (false, false)

/-- R173: a launch at its end, and one that names an end outside its image. -/
theorem test_runLaunch :
    runView (runLaunch (freshLaunch Config.standard [0x12, 0x00] []) [0x12, 0x00] (some 0x200) 0) =
        (true, false) ∧
      runView (runLaunch (freshLaunch Config.standard [0x12, 0x00] []) [0x12, 0x00] (some 0x202) 0) =
        (false, true) := by decide

/-! ### Witnesses: states and operands that meet the hypotheses of each obligation, clause by clause -/

/-- `s` steps. -/
def steps (s : State) : Prop := ∃ t, step s = .next t

/-- `fresh` with KBLOCK = Locked and an `Fx0A` at PC. -/
def lockedWait : State := withWord (fresh.setKblock .locked) 0xF30A

/-- `fresh` with one pending host transaction, due after `n` ticks. -/
def pending (n : Nat) (op : HostOp) : State := fresh.setScript [(n, op)]

theorem witness_DecodeOfEncodeIsTheInstruction :
    Instr.wellFormed (.unknownE 15 0xFF) = true ∧ Instr.wellFormed (.unknownF 15 0x00) = true ∧
      Instr.wellFormed (.jp 0xFFF) = true ∧ Instr.wellFormed .nop0 = true := by decide

/-- Group 0x0 at both ends, and a word of each clause. -/
theorem witness_GroupZeroSelectsByItsKey :
    (0x0000#16).toNat < 0x1000 ∧ (0x0FFF#16).toNat < 0x1000 ∧ (0x00E0#16).toNat < 0x1000 ∧
      (0x00EE#16).toNat < 0x1000 := by decide

theorem witness_GroupsEAndFSelectByByte :
    (0x00#8 ∉ [0x07#8, 0x0A#8, 0x15#8, 0x18#8, 0x1E#8, 0x29#8, 0x33#8, 0x55#8, 0x65#8]) ∧
      (0xFF#8 ∉ [0x07#8, 0x0A#8, 0x15#8, 0x18#8, 0x1E#8, 0x29#8, 0x33#8, 0x55#8, 0x65#8]) := by decide

/-- The last PC from which a word can be fetched. -/
theorem witness_StepRunsTheDecodedInstruction :
    let s := withWord (fresh.setPc 0xFFE) 0x1FFF
    s.due = none ∧ s.pc.toNat + 1 < 4096 ∧ Memory.read s.mem s.pc.toNat = 0x1F#8 ∧
      Memory.read s.mem (s.pc.toNat + 1) = 0xFF#8 := by decide

theorem witness_FetchBeyondMemoryFaults :
    ((fresh.setPc 0xFFF).due = none ∧ 0xFFF ≤ (fresh.setPc 0xFFF).pc.toNat) ∧
      ((fresh.setPc 0x1000).due = none ∧ 4096 ≤ (fresh.setPc 0x1000).pc.toNat) := by decide

theorem witness_EveryTickStepsTimersAndRecordsWord :
    let s := withWord ((fresh.setDt 1).setSt 0xFF) 0x6A5C
    s.ticksNext ∧ steps s ∧ (∀ x, s.nextInstr ≠ .ldDtVx x) ∧ (∀ x, s.nextInstr ≠ .ldStVx x) :=
  ⟨by decide, ⟨_, rfl⟩, by decide, by decide⟩

theorem witness_ToleratedNoOpsChangeNothing :
    ((withWord fresh 0x0000).ticksNext ∧ (withWord fresh 0x0000).nextInstr = .nop0) ∧
      ((withWord fresh 0x8128).ticksNext ∧ (withWord fresh 0x8128).nextInstr = .nop8Fn8) ∧
      ((withWord fresh 0x812F).ticksNext ∧ (withWord fresh 0x812F).nextInstr = .nop8FnF) ∧
      (0x0FFF#16).toNat < 0x1000 := by decide

/-- The first and last words of each group, and the words beside a defined one. -/
theorem witness_UnknownOpcodeTickLeavesTheDefinedState :
    (withWord fresh 0xE000).ticksNext ∧
      (0xE000 ≤ (withWord fresh 0xE000).nextWord.toNat ∧ (withWord fresh 0xE000).nextWord.toNat < 0xF000 ∧
        (withWord fresh 0xE000).nextWord.toNat % 256 ∉ [0x9E, 0xA1]) ∧
      (0xE000 ≤ (withWord fresh 0xEFFF).nextWord.toNat ∧ (withWord fresh 0xEFFF).nextWord.toNat < 0xF000 ∧
        (withWord fresh 0xEFFF).nextWord.toNat % 256 ∉ [0x9E, 0xA1]) ∧
      (0xF000 ≤ (withWord fresh 0xF000).nextWord.toNat ∧ (withWord fresh 0xF000).nextWord.toNat % 256 ∉
        [0x07, 0x0A, 0x15, 0x18, 0x1E, 0x29, 0x33, 0x55, 0x65]) ∧
      (0xF000 ≤ (withWord fresh 0xFF66).nextWord.toNat ∧ (withWord fresh 0xFF66).nextWord.toNat % 256 ∉
        [0x07, 0x0A, 0x15, 0x18, 0x1E, 0x29, 0x33, 0x55, 0x65]) := by decide

theorem witness_CallPushesTheReturnAddress :
    (fresh.setSp (.top 15)).sp.toInt = 15 ∧ (fresh.setSp (.top 14)).sp.toInt ≠ 15 ∧
      fresh.sp.toInt ≠ 15 := by decide

theorem witness_ReturnPopsTheReturnAddress :
    fresh.sp.toInt = -1 ∧ (fresh.setSp (.top 0)).sp = .top 0 ∧ (fresh.setSp (.top 15)).sp = .top 15 := by
  decide

/-- The state after a CALL at 0x200, with a RET in front of it. -/
def afterCall : State := withWord (((fresh.setSp (.top 0)).setStack 0 0x202).setPc 0x300) 0x00EE

theorem witness_ReturnComesBackAfterTheCall :
    ∃ t, (withWord fresh 0x2300).ticksNext ∧ (withWord fresh 0x2300).nextInstr = .call 0x300 ∧
      step (withWord fresh 0x2300) = .next t ∧ afterCall.ticksNext ∧ afterCall.nextInstr = .ret ∧
      afterCall.sp = t.sp ∧ (∀ j, afterCall.getStack j = t.getStack j) :=
  ⟨_, by decide, by decide, rfl, by decide, by decide, by decide, by decide⟩

/-- The cases of the flag-setting operations (AddRegistersSetsCarryThenSum,
SubtractionsSetGreaterThenDifference, ShiftsSetTheBitShiftedOut). -/
theorem witness_flag_cases :
    ¬ (fresh.cfg.flagDest = .openDraw ∧ (15 : Reg) = 15) ∧
      ¬ (freshOpen.cfg.flagDest = .openDraw ∧ (14 : Reg) = 15) ∧ (14 : Reg) ≠ 15 := by decide

theorem witness_OpenPolicyLeavesVfFree :
    freshOpen.cfg.flagDest = .openDraw ∧
      Instr.shlReg 15 3 ∈ [.addReg 15 3, .subReg 15 3, .subnReg 15 3, .shrReg 15 3, .shlReg 15 3] := by
  decide

/-- The largest sum that fits and the smallest that does not. -/
theorem witness_AddToIndexKeepsTheWholeSum :
    ((fresh.setI 0xFF00).setV 0 0xFF).i.toNat + (((fresh.setI 0xFF00).setV 0 0xFF).getV 0).toNat ≤ 0xFFFF ∧
      0xFFFF < ((fresh.setI 0xFF01).setV 0 0xFF).i.toNat +
        (((fresh.setI 0xFF01).setV 0 0xFF).getV 0).toNat := by decide

/-- `I + 2` at the last cell and just beyond. -/
theorem witness_DecimalDigitsAreStored :
    fresh.mem.wf = true ∧ (fresh.setI 0xFFD).indexed 2 < 4096 ∧ 4096 ≤ (fresh.setI 0xFFE).indexed 2 := by
  decide

/-- `I + x` at the last cell and just beyond (RegistersAreStored and RegistersAreLoaded). -/
theorem witness_RegistersAreStored_RegistersAreLoaded :
    fresh.mem.wf = true ∧ (fresh.setI 0xFF0).indexed (15 : Reg).val < 4096 ∧
      4096 ≤ (fresh.setI 0xFF1).indexed (15 : Reg).val ∧ (fresh.setI 0xFFF).indexed (0 : Reg).val < 4096 ∧
      4096 ≤ (fresh.setI 0x1000).indexed (0 : Reg).val := by decide

theorem witness_LoadRestoresWhatWasStored :
    ∃ t, fresh.mem.wf = true ∧ exec (.storeRegs 3) ((fresh.setI 0x300).setV 3 7) = .next t ∧
      (t.setV 3 0).i = ((fresh.setI 0x300).setV 3 7).i ∧ (∀ r : Reg, r ≤ 3 →
        Memory.read (t.setV 3 0).mem (((fresh.setI 0x300).setV 3 7).indexed r.val) =
          Memory.read t.mem (((fresh.setI 0x300).setV 3 7).indexed r.val)) :=
  ⟨_, by decide, rfl, rfl, fun _ _ => rfl⟩

/-- DrawXorsEachCellOnce and DrawLeavesTheLastPixelsFlag: rows up to the last cell of memory, on the screen,
off it, and clipped before a row that is out of memory. -/
theorem witness_draw_reads :
    fresh.fb.fbWf = true ∧ ¬ (fresh.cfg.flagDest = .openDraw ∧ ((15 : Reg) = 15 ∨ (15 : Reg) = 15)) ∧
      (∀ r, r < (15#4).toNat → (r = 0 ∨ ((fresh.setI 0xFF1).getV 1).toNat + (r - 1) < 32) →
        (fresh.setI 0xFF1).indexed r < 4096) ∧
      (∀ r, r < (3#4).toNat → (r = 0 ∨ (((fresh.setI 0xFFE).setV 1 31).getV 1).toNat + (r - 1) < 32) →
        ((fresh.setI 0xFFE).setV 1 31).indexed r < 4096) ∧
      (0 < (1#4).toNat ∧ ((fresh.setV 0 63).getV 0).toNat < 64 ∧ ((fresh.setV 1 31).getV 1).toNat < 32) ∧
      ¬ (0 < (1#4).toNat ∧ ((fresh.setV 0 64).getV 0).toNat < 64 ∧ (fresh.getV 1).toNat < 32) := by decide

theorem witness_DrawOffTheScreenSetsDirtyAlone :
    (∀ r, r < (1#4).toNat → (r = 0 ∨ ((fresh.setI 0xFFF).getV 1).toNat + (r - 1) < 32) →
        (fresh.setI 0xFFF).indexed r < 4096) ∧
      64 ≤ ((fresh.setV 0 64).getV 0).toNat ∧ 32 ≤ ((fresh.setV 1 32).getV 1).toNat ∧
      (0#4 = 0#4 ∨ 64 ≤ (fresh.getV 0).toNat ∨ 32 ≤ (fresh.getV 1).toNat) := by decide

theorem witness_DrawStopsOutOfMemoryOrOnOpenFlag :
    (freshOpen.cfg.flagDest = .openDraw ∧ ((15 : Reg) = 15 ∨ (0 : Reg) = 15)) ∧
      ¬ (fresh.cfg.flagDest = .openDraw ∧ ((0 : Reg) = 15 ∨ (1 : Reg) = 15)) ∧
      (1 < (2#4).toNat ∧ ((1 : Nat) = 0 ∨ (((fresh.setI 0xFFF).setV 1 31).getV 1).toNat + (1 - 1) < 32) ∧
        4096 ≤ ((fresh.setI 0xFFF).setV 1 31).indexed 1) ∧
      (0 < (1#4).toNat ∧ 4096 ≤ (fresh.setI 0x1000).indexed 0) := by decide

theorem witness_KeySkipsTestTheKey :
    ((fresh.setV 1 0x0F).getV 1).toNat = (15 : KeyCode).val ∧ 16 ≤ ((fresh.setV 1 0x10).getV 1).toNat := by
  decide

theorem witness_TimersAreReadAndWritten :
    ((withWord fresh 0xF307).ticksNext ∧ (withWord fresh 0xF307).nextInstr = .ldVxDt 3) ∧
      ((withWord fresh 0xFF15).ticksNext ∧ (withWord fresh 0xFF15).nextInstr = .ldDtVx 15) ∧
      ((withWord fresh 0xF018).ticksNext ∧ (withWord fresh 0xF018).nextInstr = .ldStVx 0) := by decide

theorem witness_DelayTimerReadsOneLessOnTheNextTick :
    ∃ t, (withBytes (withWord fresh 0xF015) 0x202 [0xF1, 0x07]).ticksNext ∧
      (withBytes (withWord fresh 0xF015) 0x202 [0xF1, 0x07]).nextInstr = .ldDtVx 0 ∧
      step (withBytes (withWord fresh 0xF015) 0x202 [0xF1, 0x07]) = .next t ∧ t.ticksNext ∧
      t.nextInstr = .ldVxDt 1 :=
  ⟨_, by decide, by decide, rfl, by decide, by decide⟩

/-- Every state of KBLOCK, and the recorded key up and down. -/
theorem witness_KeyWaitStepsItsStateMachine :
    fresh.kblock = .idle ∧ (fresh.setKblock .locked).kblock = .locked ∧
      (fresh.setKblock .unlocked).kblock = .unlocked ∧
      ((fresh.setKblock .waitingForRelease).kblock = .waitingForRelease ∧
        (fresh.setKblock .waitingForRelease).getKey (fresh.setKblock .waitingForRelease).lastKey = false) ∧
      (((fresh.setKblock .waitingForRelease).setKey 0 true).getKey
        ((fresh.setKblock .waitingForRelease).setKey 0 true).lastKey = true) := by decide

/-- A step of each kind that moves KBLOCK: `Fx0A`, a key-down while Locked, a reset. -/
theorem witness_KeyBlockMovesOnlyByItsTable :
    steps (withWord fresh 0xF30A) ∧ steps ((pending 0 (.keySet 15 true)).setKblock .locked) ∧
      steps ((pending 0 .reset).setKblock .locked) :=
  ⟨⟨_, rfl⟩, ⟨_, rfl⟩, ⟨_, rfl⟩⟩

theorem witness_UnansweredWaitNeverAdvances :
    lockedWait.script = [] ∧ lockedWait.pc.toNat + 1 < 4096 ∧ lockedWait.kblock = .locked ∧
      lockedWait.nextInstr = .ldVxK 3 := by decide

theorem witness_PressAndReleaseResolveTheWait :
    let s := lockedWait.setScript [(0, .keySet 5 true), (0, .keySet 5 false)]
    s.pc.toNat + 1 < 4096 ∧ s.kblock = .locked ∧ s.nextInstr = .ldVxK 3 ∧
      s.script = [(s.ticks, .keySet (5 : KeyCode).val true), (s.ticks, .keySet (5 : KeyCode).val false)] := by
  decide

theorem witness_KeySetRecordsTheEvent :
    (true = true ∧ (fresh.setKblock .locked).kblock = .locked) ∧ (true = true ∧ fresh.kblock ≠ .locked) ∧
      (false = false) ∧ (15 : KeyCode).val = 15 ∧ 16 ≤ (16 : Nat) := by decide

/-- The longest image that fits and one byte more (H-7). -/
theorem witness_LoadCopiesTheImage :
    fresh.mem.wf = true ∧ fresh.cfg.origin.toNat + (List.replicate 3584 0#8).length ≤ 4096 ∧
      4096 < fresh.cfg.origin.toNat + (List.replicate 3585 0#8).length := by
  simp only [List.length_replicate]; decide

theorem witness_ConstructLeavesTheConstructValues :
    { Config.standard with origin := 0xFFE }.origin.toNat ≤ 0xFFE ∧
      0xFFE < { Config.standard with origin := 0xFFF }.origin.toNat := by decide

/-- The largest origin with the longest image that fits it, and one byte more. -/
theorem witness_FreshLaunchStartsTheImage :
    { Config.standard with origin := 0xFFE }.origin.toNat ≤ 0xFFE ∧
      { Config.standard with origin := 0xFFE }.origin.toNat + [0x12#8, 0x00#8].length ≤ 4096 ∧
      4096 < { Config.standard with origin := 0xFFE }.origin.toNat + [0x12#8, 0x00#8, 0x00#8].length ∧
      0xFFE < { Config.standard with origin := 0xFFF }.origin.toNat := by decide

/-- A due transaction at the head and behind one that is not due, and a script with none due. -/
theorem witness_DueTransactionIsOneStep :
    ((pending 0 .reset).script = [] ++ (0, .reset) :: [] ∧
        (∀ p ∈ ([] : List (Nat × HostOp)), (pending 0 .reset).ticks < p.1) ∧ 0 ≤ (pending 0 .reset).ticks) ∧
      ((fresh.setScript [(1, .clearDirty), (0, .reset)]).script = [(1, .clearDirty)] ++ (0, .reset) :: [] ∧
        (∀ p ∈ [((1 : Nat), HostOp.clearDirty)],
          (fresh.setScript [(1, .clearDirty), (0, .reset)]).ticks < p.1)) ∧
      (∀ p ∈ (pending 1 .reset).script, (pending 1 .reset).ticks < p.1) := by decide

theorem witness_HostTransactionsLeaveRegistersAlone :
    (∃ t, performHostOp (.load [0x12]) fresh = .next t) ∧ (∃ t, performHostOp .reset fresh = .next t) ∧
      (∃ t, performHostOp (.keySet 15 true) fresh = .next t) ∧
      (∃ t, performHostOp .clearDirty fresh = .next t) :=
  ⟨⟨_, rfl⟩, ⟨_, rfl⟩, ⟨_, rfl⟩, ⟨_, rfl⟩⟩

theorem witness_InstructionsWriteOnlyWhatIsListed :
    ∃ t, spriteRow.mem.wf = true ∧ spriteRow.fb.fbWf = true ∧ exec (.drw 0 1 1) spriteRow = .next t :=
  ⟨_, by decide, by decide, rfl⟩

theorem witness_TicksLeaveKeysToTheHost : lockedWait.ticksNext ∧ steps lockedWait :=
  ⟨by decide, ⟨_, rfl⟩⟩

/-- A state at the bounds of the invariant that steps: PC far, a full stack, an image up to the end. -/
theorem witness_StepKeepsInvariant :
    let s := withWord (withBytes (((fresh.setSp (.top 15)).setStack 15 0x1000).setPc 0xFFE) 0x300 [1]) 0xB001
    Inv s ∧ steps s :=
  ⟨by decide, ⟨_, rfl⟩⟩

theorem witness_NormalizedCellsStayBits :
    let s := withWord ((State.constructed { Config.standard with pixelXor := .normalized }).setI 0x300) 0xD011
    s.cfg.pixelXor = .normalized ∧ s.fb.fbWf = true ∧ (∀ k, s.getFb k = 0#8 ∨ s.getFb k = 1#8) ∧ steps s :=
  ⟨by decide, by decide, fun _ => .inl rfl, ⟨_, rfl⟩⟩

theorem witness_SelfJumpIsAFixedPoint :
    (withWord fresh 0x1200).ticksNext ∧ (withWord fresh 0x1200).pc.toNat = (0x200#12).toNat ∧
      (withWord fresh 0x1200).nextWord.toNat = 0x1000 + (0x200#12).toNat ∧
      (withWord (fresh.setPc 0xFFE) 0x1FFE).ticksNext := by decide

end Sys2Proof.Tests
end

section
/-! PROOFS. Frames: how `ChangesOnly` composes, what each named update leaves alone, and the frame of every
instruction (spec/10_state.md, index of writers R17-R32). -/

namespace Sys2Proof.Machine

/-! ### Accesses and the call stack, by outcome -/

theorem finish_eq_next {r : Except Fault State} {t : State} : finish r = .next t ↔ r = .ok t := by
  cases r <;> simp [finish]

theorem State.popReturn_empty {s : State} (h : s.sp = .empty) : s.popReturn = .error .stackUnderflow := by
  simp [State.popReturn, h]

theorem State.popReturn_top {s : State} {j : Fin 16} (h : s.sp = .top j) :
    s.popReturn = .ok ((s.setPc (s.getStack j)).setSp (StackPointer.below j)) := by
  simp [State.popReturn, h]

theorem State.pushReturn_full {s : State} {w : Word} (h : s.sp.push = none) :
    s.pushReturn w = .error .stackOverflow := by
  simp [State.pushReturn, h]

theorem State.pushReturn_some {s : State} {w : Word} {j : Fin 16} (h : s.sp.push = some j) :
    s.pushReturn w = .ok ((s.setSp (.top j)).setStack j w) := by
  simp [State.pushReturn, h]

/-! ### The algebra of frames -/

theorem Piece.same_refl (s : State) (p : Piece) : p.same s s := by cases p <;> rfl

theorem Piece.same_trans {s t u : State} {p : Piece} (h1 : p.same s t) (h2 : p.same t u) : p.same s u := by
  cases p <;> exact h2.trans h1

theorem ChangesOnly.refl (may : Piece → Prop) (s : State) : ChangesOnly may s s :=
  fun p _ => p.same_refl s

theorem ChangesOnly.trans {may : Piece → Prop} {s t u : State} (h1 : ChangesOnly may s t)
    (h2 : ChangesOnly may t u) : ChangesOnly may s u :=
  fun p hp => Piece.same_trans (h1 p hp) (h2 p hp)

theorem ChangesOnly.mono {may may' : Piece → Prop} {s t : State} (h : ChangesOnly may s t)
    (hm : ∀ p, may p → may' p) : ChangesOnly may' s t :=
  fun p hp => h p (mt (hm p) hp)

/-! ### The frame of each named update -/

theorem changesOnly_setV (s : State) (x : Reg) (b : Byte) : ChangesOnly (· = .v x) s (s.setV x b) := by
  intro p hp
  cases p with
  | v r => exact (State.getV_setV s x r b).trans (if_neg fun h => hp (congrArg _ h))
  | _ => rfl

theorem changesOnly_setI (s : State) (w : Word) : ChangesOnly (· = .i) s (s.setI w) := by
  intro p hp
  cases p with
  | i => exact absurd rfl hp
  | _ => rfl

theorem changesOnly_setPc (s : State) (w : Word) : ChangesOnly (· = .pc) s (s.setPc w) := by
  intro p hp
  cases p with
  | pc => exact absurd rfl hp
  | _ => rfl

theorem changesOnly_setSp (s : State) (q : StackPointer) : ChangesOnly (· = .sp) s (s.setSp q) := by
  intro p hp
  cases p with
  | sp => exact absurd rfl hp
  | _ => rfl

theorem changesOnly_setStack (s : State) (j : Fin 16) (w : Word) :
    ChangesOnly (· = .stack j) s (s.setStack j w) := by
  intro p hp
  cases p with
  | stack k => exact (State.getStack_setStack s j k w).trans (if_neg fun h => hp (congrArg _ h))
  | _ => rfl

theorem changesOnly_setDt (s : State) (b : Byte) : ChangesOnly (· = .dt) s (s.setDt b) := by
  intro p hp
  cases p with
  | dt => exact absurd rfl hp
  | _ => rfl

theorem changesOnly_setSt (s : State) (b : Byte) : ChangesOnly (· = .st) s (s.setSt b) := by
  intro p hp
  cases p with
  | st => exact absurd rfl hp
  | _ => rfl

theorem changesOnly_setDirty (s : State) (d : Bool) : ChangesOnly (· = .dirty) s (s.setDirty d) := by
  intro p hp
  cases p with
  | dirty => exact absurd rfl hp
  | _ => rfl

theorem changesOnly_setKblock (s : State) (k : KeyBlock) : ChangesOnly (· = .kblock) s (s.setKblock k) := by
  intro p hp
  cases p with
  | kblock => exact absurd rfl hp
  | _ => rfl

theorem changesOnly_setResult (s : State) (r : TickResult) :
    ChangesOnly (· = .result) s (s.setResult r) := by
  intro p hp
  cases p with
  | result => exact absurd rfl hp
  | _ => rfl

theorem changesOnly_advanceDraws (s : State) : ChangesOnly (· = .draws) s s.advanceDraws := by
  intro p hp
  cases p with
  | draws => exact absurd rfl hp
  | _ => rfl

/-- Without the canonical form a write may disturb other framebuffer cells, but nothing else. -/
theorem changesOnly_setFb (s : State) (k : Nat) (b : Byte) :
    ChangesOnly (fun p => ∃ j, p = .fb j) s (s.setFb k b) := by
  intro p hp
  cases p with
  | fb j => exact absurd ⟨j, rfl⟩ hp
  | _ => rfl

theorem changesOnly_clearFb (s : State) : ChangesOnly (fun p => ∃ j, p = .fb j) s s.clearFb := by
  intro p hp
  cases p with
  | fb j => exact absurd ⟨j, rfl⟩ hp
  | _ => rfl

theorem changesOnly_setMem (s : State) (m : Memory) :
    ChangesOnly (fun p => ∃ a, p = .mem a) s (s.setMem m) := by
  intro p hp
  cases p with
  | mem a => exact absurd ⟨a, rfl⟩ hp
  | _ => rfl

theorem changesOnly_skipIf (s : State) (c : Bool) : ChangesOnly (· = .pc) s (s.skipIf c) := by
  unfold State.skipIf
  split
  · exact changesOnly_setPc s _
  · exact .refl _ s

/-- A flag-setting operation writes Vx and VF, and draws a free byte only where R91 has it draw one. -/
theorem changesOnly_writeFlagged (s : State) (x : Reg) (flag result : Byte) :
    ChangesOnly (fun p => p = .v x ∨ p = .v regVF ∨ p = .draws ∧ s.freeFlag x) s
      (s.writeFlagged x flag result) := by
  by_cases h : s.freeFlag x
  · rw [State.writeFlagged_free h]
    exact ((changesOnly_setV s regVF _).mono fun p hp => .inr (.inl hp)).trans
      ((changesOnly_advanceDraws _).mono fun p hp => .inr (.inr ⟨hp, h⟩))
  · rw [State.writeFlagged_eq h]
    exact ((changesOnly_setV s regVF _).mono fun p hp => .inr (.inl hp)).trans
      ((changesOnly_setV _ x _).mono fun p hp => .inl hp)

/-! ### The frame of a draw -/

/-- VF and the framebuffer, the only pieces the loops of a draw write (R115, R116). -/
def Piece.drawn (p : Piece) : Prop := p = .v regVF ∨ ∃ k, p = .fb k

theorem changesOnly_drawPixel (s : State) (b : Byte) (c xp yp : Nat) :
    ChangesOnly Piece.drawn s (s.drawPixel b c xp yp) :=
  ((changesOnly_setFb s _ _).mono fun _ h => .inr h).trans
    ((changesOnly_setV _ regVF _).mono fun _ h => .inl h)

theorem changesOnly_drawColumns (s : State) (b : Byte) (x0 yp left c : Nat) :
    ChangesOnly Piece.drawn s (s.drawColumns b x0 yp left c) := by
  induction left generalizing s c with
  | zero => exact .refl _ _
  | succ left ih =>
    rw [State.drawColumns]
    split
    · exact .refl _ _
    · exact (changesOnly_drawPixel s b c _ yp).trans (ih _ _)

theorem changesOnly_drawRows {s t : State} {x0 y0 left r : Nat}
    (h : s.drawRows x0 y0 left r = .ok t) : ChangesOnly Piece.drawn s t := by
  induction left generalizing s r with
  | zero => cases h; exact .refl _ _
  | succ left ih =>
    rw [State.drawRows] at h
    split at h
    · cases h
    · split at h
      · cases h; exact .refl _ _
      · exact (changesOnly_drawColumns s _ x0 _ 8 0).trans (ih h)

/-- The cells of a draw that answers a state: each gets the sprite bit over it (R115-R117). -/
theorem getFb_of_drawRows {s t : State} (hw : s.fb.fbWf = true) {x0 y0 left r : Nat}
    (h : s.drawRows x0 y0 left r = .ok t) (j : Nat) :
    t.getFb j = s.getFb j ^^^ spritePixel s x0 y0 r left j := by
  have hread : ∀ k, r ≤ k → k < r + left → (k = r ∨ y0 + (k - 1) < fbHeight) →
      s.indexed k < memSize := by
    intro k h1 h2 h3
    by_contra hk
    rw [State.drawRows_error h1 h2 h3 (Nat.not_lt.1 hk)] at h
    cases h
  obtain ⟨u, hu, -, -, hcells, -⟩ := State.drawRows_ok hw hread
  cases hu.symm.trans h
  exact hcells j

/-! ### The frame of the block transfers -/

/-- A run of stores that answers a state has stood inside memory (R40, R152). -/
theorem eq_of_storeBytes {s t : State} {a : Nat} {bs : List Byte} (hne : bs ≠ [])
    (h : s.storeBytes a bs = .ok t) :
    a + bs.length ≤ memSize ∧ t = s.setMem (Memory.writeAll s.mem a bs) := by
  by_cases hfit : a + bs.length ≤ memSize
  · rw [State.storeBytes_ok hfit] at h
    cases h
    exact ⟨hfit, rfl⟩
  · rw [State.storeBytes_error hne (by omega)] at h
    cases h

/-- Loading V0..Vx writes these registers alone (R110). -/
theorem changesOnly_loadEach {s t : State} {rs : List Reg} (h : s.loadEach rs = .ok t) :
    ChangesOnly (fun p => ∃ r ∈ rs, p = .v r) s t := by
  induction rs generalizing s with
  | nil => cases h; exact .refl _ _
  | cons r rs ih =>
    rw [State.loadEach] at h
    split at h
    · cases h
    · exact ((changesOnly_setV s r _).mono fun p hp => ⟨r, by simp, hp⟩).trans
        ((ih h).mono fun p ⟨q, hq, hp⟩ => ⟨q, by simp [hq], hp⟩)

/-! ### The frame of every instruction -/

/-- A cell of memory or of the framebuffer. -/
def Piece.isCell : Piece → Bool
  | .mem _ | .fb _ => true
  | _ => false

/-- The pieces an instruction may disturb in any state: what `mayWrite` lists, and, where an array of
cells is not in canonical form, so that a write may uncover a hidden cell, any cell. -/
def mayDisturb (i : Instr) (s : State) (p : Piece) : Prop :=
  mayWrite i s p = true ∨ p.isCell = true ∧ ¬ (s.mem.wf = true ∧ s.fb.fbWf = true)

/-- An update of listed pieces is inside the frame of the instruction. -/
theorem ChangesOnly.listed {i : Instr} {may : Piece → Prop} {s u t : State} (h : ChangesOnly may u t)
    (hm : ∀ p, may p → mayWrite i s p = true) : ChangesOnly (mayDisturb i s) u t :=
  h.mono fun p hp => .inl (hm p hp)

/-- A run of stores over listed cells is inside the frame of the instruction (R44). -/
theorem changesOnly_of_storeBytes {i : Instr} {s t : State} {a : Nat} {bs : List Byte} (hne : bs ≠ [])
    (h : s.storeBytes a bs = .ok t)
    (hm : ∀ k, a ≤ k → k < a + bs.length → mayWrite i s (.mem k) = true) :
    ChangesOnly (mayDisturb i s) s t := by
  obtain ⟨hfit, rfl⟩ := eq_of_storeBytes hne h
  intro p hp
  cases p with
  | mem k =>
    have hw : s.mem.wf = true := by by_contra hw; exact hp (.inr ⟨rfl, fun h => hw h.1⟩)
    refine (Memory.read_writeAll hw a bs hfit k).trans ?_
    split
    · rfl
    · have hk : ¬ k < a + bs.length := fun hk => hp (.inl (hm k (by omega) hk))
      rw [List.getElem?_eq_none (by omega)]
      rfl
  | _ => rfl

theorem execDrw_frame {x y : Reg} {n : Nibble} {s t : State} (h : execDrw x y n s = .next t) :
    ChangesOnly (mayDisturb (.drw x y n) s) s t := by
  unfold execDrw at h
  split at h
  · cases h
  have hrows := finish_eq_next.1 h
  have hloose : ChangesOnly (fun p => p = .dirty ∨ p.drawn) s t :=
    ((changesOnly_setDirty s true).mono fun _ hp => .inl hp).trans
      ((changesOnly_drawRows hrows).mono fun _ hp => .inr hp)
  intro p hp
  by_cases hfb : ∃ k, p = .fb k
  · obtain ⟨k, rfl⟩ := hfb
    have hw : s.fb.fbWf = true := by
      by_contra hw; exact hp (.inr ⟨rfl, fun h => hw h.2⟩)
    refine (getFb_of_drawRows (s := s.setDirty true) hw hrows k).trans ?_
    rw [spritePixel, if_neg fun hk => hp (.inl (by simpa [mayWrite] using hk))]
    exact BitVec.xor_zero
  · refine hloose p ?_
    rintro (rfl | rfl | hk)
    · exact hp (.inl rfl)
    · exact hp (.inl (by simp [mayWrite]))
    · exact hfb hk

theorem execLdVxK_frame {x : Reg} {s t : State} (h : execLdVxK x s = .next t) :
    ChangesOnly (mayDisturb (.ldVxK x) s) s t := by
  have hrewind : s.kblock ≠ .unlocked → ChangesOnly (mayDisturb (.ldVxK x) s) s s.rewind := fun hk =>
    (changesOnly_setPc s _).listed (by simp [mayWrite, hk])
  have hblock (u : State) (k : KeyBlock) : ChangesOnly (mayDisturb (.ldVxK x) s) u (u.setKblock k) :=
    (changesOnly_setKblock u k).listed (by simp [mayWrite])
  unfold execLdVxK at h
  split at h
  · rename_i hk
    cases h
    exact (hrewind (by simp [hk])).trans (hblock _ _)
  · rename_i hk
    cases h
    exact hrewind (by simp [hk])
  · rename_i hk
    split at h <;> cases h
    · exact hrewind (by simp [hk])
    · exact (hrewind (by simp [hk])).trans (hblock _ _)
  · rename_i hk
    cases h
    exact ((changesOnly_setV s x _).listed (by simp [mayWrite, hk])).trans (hblock _ _)

theorem execLdBVx_frame {x : Reg} {s t : State} (h : execLdBVx x s = .next t) :
    ChangesOnly (mayDisturb (.ldBVx x) s) s t :=
  changesOnly_of_storeBytes (by simp) (finish_eq_next.1 h) fun k h1 h2 => by
    simp only [mayWrite, State.indexed, List.length_cons, List.length_nil] at h1 h2 ⊢
    exact decide_eq_true (by omega)

theorem execStoreRegs_frame {x : Reg} {s t : State} (h : execStoreRegs x s = .next t) :
    ChangesOnly (mayDisturb (.storeRegs x) s) s t := by
  have hst := finish_eq_next.1 h
  rw [State.storeEach_eq (regRun_regsThrough x)] at hst
  refine changesOnly_of_storeBytes ?_ hst fun k h1 h2 => ?_
  · simp [← List.length_pos_iff, length_regsThrough]
  · rw [List.length_map, length_regsThrough] at h2
    simp only [mayWrite, State.indexed] at h1 h2 ⊢
    exact decide_eq_true (by omega)

theorem execLoadRegs_frame {x : Reg} {s t : State} (h : execLoadRegs x s = .next t) :
    ChangesOnly (mayDisturb (.loadRegs x) s) s t :=
  (changesOnly_loadEach (finish_eq_next.1 h)).listed fun p ⟨r, hr, hp⟩ => by
    simpa [mayWrite, hp] using mem_regsThrough.1 hr

theorem execRet_frame {s t : State} (h : execRet s = .next t) : ChangesOnly (mayDisturb .ret s) s t := by
  have hpop := finish_eq_next.1 h
  cases hsp : s.sp with
  | empty => rw [State.popReturn_empty hsp] at hpop; cases hpop
  | top j =>
  rw [State.popReturn_top hsp] at hpop
  cases hpop
  exact ((changesOnly_setPc s _).listed (by simp [mayWrite])).trans
    ((changesOnly_setSp _ _).listed (by simp [mayWrite]))

theorem execCall_frame {nnn : Addr12} {s t : State} (h : execCall nnn s = .next t) :
    ChangesOnly (mayDisturb (.call nnn) s) s t := by
  unfold execCall at h
  rcases s.pushReturn_eq s.pc with ⟨-, hpush⟩ | ⟨j, hj, hpush⟩ <;> rw [hpush] at h <;> cases h
  exact (((changesOnly_setSp s _).listed (by simp [mayWrite])).trans
    ((changesOnly_setStack _ j _).listed (by simp [mayWrite, hj]))).trans
    ((changesOnly_setPc _ _).listed (by simp [mayWrite]))

/-- What an instruction may disturb in any state, canonical or not. -/
theorem exec_frame {i : Instr} {s t : State} (h : exec i s = .next t) :
    ChangesOnly (mayDisturb i s) s t := by
  cases i with
  | cls =>
    cases h
    exact ((changesOnly_clearFb s).listed (by simp [mayWrite])).trans
      ((changesOnly_setDirty _ _).listed (by simp [mayWrite]))
  | ret => exact execRet_frame h
  | call nnn => exact execCall_frame h
  | jp nnn | jpV0 nnn => cases h; exact (changesOnly_setPc s _).listed (by simp [mayWrite])
  | seImm x _ | sneImm x _ | seReg x _ | sneReg x _ =>
    cases h; exact (changesOnly_skipIf s _).listed (by simp [mayWrite])
  | skp x | sknp x =>
    simp only [exec, execSkp, execSknp] at h
    split at h <;> cases h
    exact (changesOnly_skipIf s _).listed (by simp [mayWrite])
  | ldImm x _ | addImm x _ | ldReg x _ | orReg x _ | andReg x _ | xorReg x _ | ldVxDt x =>
    cases h; exact (changesOnly_setV s x _).listed (by simp [mayWrite])
  | addReg x _ | subReg x _ | shrReg x _ | subnReg x _ | shlReg x _ =>
    cases h
    refine (changesOnly_writeFlagged s x _ _).listed ?_
    rintro p (rfl | rfl | ⟨rfl, hfree⟩)
    · simp [mayWrite]
    · simp [mayWrite]
    · simpa [mayWrite, State.freeFlag] using hfree
  | rnd x _ =>
    cases h
    exact ((changesOnly_advanceDraws s).listed (by simp [mayWrite])).trans
      ((changesOnly_setV _ x _).listed (by simp [mayWrite]))
  | ldI _ | ldFVx _ => cases h; exact (changesOnly_setI s _).listed (by simp [mayWrite])
  | addIVx x =>
    simp only [exec, execAddIVx] at h
    split at h <;> cases h
    exact (changesOnly_setI s _).listed (by simp [mayWrite])
  | drw x y n => exact execDrw_frame h
  | ldVxK x => exact execLdVxK_frame h
  | ldDtVx _ => cases h; exact (changesOnly_setDt s _).listed (by simp [mayWrite])
  | ldStVx _ => cases h; exact (changesOnly_setSt s _).listed (by simp [mayWrite])
  | ldBVx x => exact execLdBVx_frame h
  | storeRegs x => exact execStoreRegs_frame h
  | loadRegs x => exact execLoadRegs_frame h
  | unknownE _ _ | unknownF _ _ => cases h; exact (changesOnly_setResult s _).listed (by simp [mayWrite])
  | nop0 | nop8Fn8 | nop8Fn9 | nop8FnA | nop8FnB | nop8FnC | nop8FnD | nop8FnF =>
    cases h; exact .refl _ s

/-- Settles O53: in a canonical state the frame of `exec` admits no cell beyond what `mayWrite` lists. -/
theorem instructionsWriteOnlyWhatIsListed : Obligations.InstructionsWriteOnlyWhatIsListed := by
  intro i s t hmem hfb h
  refine (exec_frame h).mono fun p hp => ?_
  rcases hp with hp | ⟨-, hcanon⟩
  · exact hp
  · exact absurd ⟨hmem, hfb⟩ hcanon

/-! ### Who writes the keypad and the parameters (R29, R31, R35) -/

/-- The pieces that belong to the host: the keys, LASTKEY, the parameters and the script. -/
def Piece.hostOwned : Piece → Bool
  | .key _ | .lastKey | .cfg | .script => true
  | _ => false

theorem not_mayDisturb_of_hostOwned {p : Piece} (hp : p.hostOwned = true) (i : Instr) (s : State) :
    ¬ mayDisturb i s p := by
  cases p with
  | key _ | lastKey | cfg | script => cases i <;> simp [mayDisturb, mayWrite, Piece.isCell]
  | _ => cases hp

/-- Settles O54: the parts of a tick before the handler leave the host's pieces alone, and no handler
lists one. -/
theorem ticksLeaveKeysToTheHost : Obligations.TicksLeaveKeysToTheHost := by
  intro s t hs h
  rw [step_eq hs] at h
  have hkeep (p : Piece) (hp : p.hostOwned = true) : p.same (s.stepTimers.advance s.nextWord) t :=
    exec_frame h p (not_mayDisturb_of_hostOwned hp _ _)
  exact ⟨fun c => hkeep (.key c) rfl, hkeep .lastKey rfl, hkeep .cfg rfl, hkeep .script rfl⟩

/-- Settles O51, by the four forms of a host transaction. -/
theorem hostTransactionsLeaveRegistersAlone : Obligations.HostTransactionsLeaveRegistersAlone := by
  intro op s t h
  obtain ⟨_, _, _, rfl⟩ | ⟨_, rfl⟩ | ⟨_, _, _, rfl⟩ | ⟨_, rfl⟩ := performHostOp_next h
  · exact ⟨fun _ => rfl, rfl, rfl, rfl⟩
  · exact ⟨fun _ => rfl, rfl, rfl, rfl⟩
  · exact ⟨fun r => by simp [State.getV], by simp, by simp, by simp⟩
  · exact ⟨fun _ => rfl, rfl, rfl, rfl⟩

end Sys2Proof.Machine
end

section
/-! PROOFS. What a step cannot observe: erasing ST, DIRTY and LASTINSN (R25, R28, R32), or the content of
the stack slots above SP (R23), changes no outcome of a step up to what is erased. Both erasures are one
function of two flags, so that the instructions are gone through once. -/

namespace Sys2Proof.Machine

/-- A state without ST, DIRTY and LASTINSN when `outputs` is set, and without the content of the slots
above SP when `slots` is set. -/
def State.erase (outputs slots : Bool) (s : State) : State :=
  { s with
    st       := if outputs then 0#8 else s.st
    dirty    := if outputs then false else s.dirty
    lastInsn := if outputs then 0#16 else s.lastInsn
    stack    := if slots then s.withoutDeadSlots.stack else s.stack }

theorem State.erase_outputs : State.erase true false = State.withoutOutputs := rfl

theorem State.erase_slots : State.erase false true = State.withoutDeadSlots := rfl

section Erasure

variable {o d : Bool}

/-- A slot after erasure: the live ones keep their content. -/
theorem State.getStack_erase (s : State) (j : Fin 16) :
    (s.erase o d).getStack j = if d = true → s.sp.live j = true then s.getStack j else 0#16 := by
  cases d <;> simp [State.erase, State.withoutDeadSlots, State.getStack]

/-- States that differ only in erased pieces are alike after erasure. -/
theorem State.erase_congr {s t : State}
    (hslots : ∀ j, (d = true → s.sp.live j = true) → t.getStack j = s.getStack j)
    (hout : o = false → t.st = s.st ∧ t.dirty = s.dirty ∧ t.lastInsn = s.lastInsn := by
      rintro rfl; exact ⟨rfl, rfl, rfl⟩)
    (hrest : { t with st := s.st, dirty := s.dirty, lastInsn := s.lastInsn, stack := s.stack } = s := by
      rfl) :
    t.erase o d = s.erase o d := by
  have hsp : t.sp = s.sp := by rw [← hrest]
  have hstack : (t.erase o d).stack = (s.erase o d).stack := Vector.ext fun n hn => by
    change (t.erase o d).getStack ⟨n, hn⟩ = (s.erase o d).getStack ⟨n, hn⟩
    rw [State.getStack_erase, State.getStack_erase, hsp]
    split
    · exact hslots _ ‹_›
    · rfl
  calc t.erase o d
      = { { t with st := s.st, dirty := s.dirty, lastInsn := s.lastInsn, stack := s.stack }.erase o d with
          stack := (t.erase o d).stack } := by
        cases o with
        | true => rfl
        | false =>
          obtain ⟨h1, h2, h3⟩ := hout rfl
          rw [← h1, ← h2, ← h3]
          rfl
    _ = s.erase o d := by rw [hrest, hstack]

/-- Erasure keeps the live slots, and every slot when it is not asked to erase slots. -/
theorem State.getStack_erase_live {s : State} {j : Fin 16} (h : d = true → s.sp.live j = true) :
    (s.erase o d).getStack j = s.getStack j := (State.getStack_erase s j).trans (if_pos h)

theorem State.erase_erase (s : State) : (s.erase o d).erase o d = s.erase o d :=
  State.erase_congr fun _ hj => State.getStack_erase_live (o := o) hj

/-! ### Updates of an erased state -/

theorem State.erase_setDirty (s : State) (b : Bool) :
    ((s.erase o d).setDirty b).erase o d = (s.setDirty b).erase o d :=
  State.erase_congr fun _ hj => State.getStack_erase_live (o := o) hj

theorem State.erase_setSt (s : State) (b : Byte) :
    ((s.erase o d).setSt b).erase o d = (s.setSt b).erase o d :=
  State.erase_congr fun _ hj => State.getStack_erase_live (o := o) hj

/-- The parts of a tick before the handler: ST counts down apart, LASTINSN is overwritten. -/
theorem State.erase_beforeHandler (s : State) (op : Word) :
    ((s.erase o d).stepTimers.advance op).erase o d = (s.stepTimers.advance op).erase o d :=
  State.erase_congr fun _ hj => State.getStack_erase_live (o := o) hj

theorem State.erase_hostReset (s : State) :
    (hostReset (s.erase o d)).erase o d = (hostReset s).erase o d :=
  State.erase_congr fun _ _ => rfl

theorem StackPointer.live_top {j k : Fin 16} : (StackPointer.top j).live k = true ↔ k.val ≤ j.val :=
  decide_eq_true_iff

/-- The slots below the one a push makes live were live before. -/
theorem StackPointer.live_of_push {p : StackPointer} {j k : Fin 16} (h : p.push = some j) (hne : k ≠ j)
    (hk : (StackPointer.top j).live k = true) : p.live k = true := by
  have hlt : k.val < j.val := lt_of_le_of_ne (StackPointer.live_top.1 hk) (Fin.val_ne_of_ne hne)
  cases p with
  | empty => cases h; exact absurd hlt (Nat.not_lt_zero _)
  | top q =>
    simp only [StackPointer.push] at h
    split at h <;> cases h
    exact StackPointer.live_top.2 (Nat.le_of_lt_succ hlt)

/-- A pop makes no slot live. -/
theorem StackPointer.live_of_below {j k : Fin 16} (hk : (StackPointer.below j).live k = true) :
    (StackPointer.top j).live k = true := by
  unfold StackPointer.below at hk
  split at hk
  · cases hk
  · exact StackPointer.live_top.2 ((StackPointer.live_top.1 hk).trans (Nat.sub_le _ _))

/-- The push of a call: the one slot it makes live is overwritten. -/
theorem State.erase_push (s : State) (w target : Word) {j : Fin 16} (h : s.sp.push = some j) :
    ((((s.erase o d).setSp (.top j)).setStack j w).setPc target).erase o d =
      (((s.setSp (.top j)).setStack j w).setPc target).erase o d := by
  refine State.erase_congr fun k hk => ?_
  by_cases hkj : k = j
  · simp [hkj]
  · have hlive : d = true → s.sp.live k = true := fun hd => StackPointer.live_of_push h hkj (hk hd)
    simpa [hkj] using State.getStack_erase_live (o := o) hlive

/-- The pop of a return: every slot live after it was live before. -/
theorem State.erase_pop (s : State) (target : Word) {j : Fin 16} (h : s.sp = .top j) :
    (((s.erase o d).setPc target).setSp (StackPointer.below j)).erase o d =
      ((s.setPc target).setSp (StackPointer.below j)).erase o d := by
  refine State.erase_congr fun k hk => ?_
  have hlive : d = true → s.sp.live k = true := fun hd => h ▸ StackPointer.live_of_below (hk hd)
  exact State.getStack_erase_live (o := o) hlive

/-! ### Operations that commute with erasure: they neither read nor write an erased piece -/

theorem State.skipIf_erase (s : State) (c : Bool) :
    (s.erase o d).skipIf c = (s.skipIf c).erase o d := by
  cases c <;> rfl

theorem State.writeFlagged_erase (s : State) (x : Reg) (flag result : Byte) :
    (s.erase o d).writeFlagged x flag result = (s.writeFlagged x flag result).erase o d := by
  by_cases h : s.freeFlag x
  · rw [State.writeFlagged_free h, State.writeFlagged_free (s := s.erase o d) h]
    rfl
  · rw [State.writeFlagged_eq h, State.writeFlagged_eq (s := s.erase o d) h]
    rfl

theorem State.noteKey_erase (s : State) (c : KeyCode) (p : Bool) :
    (s.erase o d).noteKey c p = (s.noteKey c p).erase o d := by
  unfold State.noteKey
  rw [apply_ite (State.erase o d), apply_ite (State.erase o d)]
  rfl

theorem State.drawColumns_erase (s : State) (b : Byte) (x0 yp left c : Nat) :
    (s.erase o d).drawColumns b x0 yp left c = (s.drawColumns b x0 yp left c).erase o d := by
  induction left generalizing s c with
  | zero => rfl
  | succ left ih =>
    rw [State.drawColumns, State.drawColumns, apply_ite (State.erase o d), ← ih]
    rfl

theorem State.readMem_erase (s : State) (a : Nat) : (s.erase o d).readMem a = s.readMem a := rfl

theorem State.indexed_erase (s : State) (k : Nat) : (s.erase o d).indexed k = s.indexed k := rfl

theorem State.getV_erase (s : State) (x : Reg) : (s.erase o d).getV x = s.getV x := rfl

theorem State.kblock_erase (s : State) : (s.erase o d).kblock = s.kblock := rfl

theorem State.writeMem_erase (s : State) (a : Nat) (v : Byte) :
    (s.erase o d).writeMem a v = (s.writeMem a v).map (State.erase o d) := by
  unfold State.writeMem
  rw [apply_ite (Except.map (State.erase o d))]
  rfl

theorem State.drawRows_erase (s : State) (x0 y0 left r : Nat) :
    (s.erase o d).drawRows x0 y0 left r = (s.drawRows x0 y0 left r).map (State.erase o d) := by
  induction left generalizing s r with
  | zero => rfl
  | succ left ih =>
    rw [State.drawRows, State.drawRows, State.indexed_erase, State.readMem_erase]
    cases s.readMem (s.indexed r) with
    | error f => rfl
    | ok b => simp only [State.drawColumns_erase, ih, apply_ite (Except.map (State.erase o d))]; rfl

theorem State.storeBytes_erase (s : State) (a : Nat) (bs : List Byte) :
    (s.erase o d).storeBytes a bs = (s.storeBytes a bs).map (State.erase o d) := by
  induction bs generalizing s a with
  | nil => rfl
  | cons b bs ih =>
    rw [State.storeBytes, State.storeBytes, State.writeMem_erase]
    cases s.writeMem a b with
    | error f => rfl
    | ok u => exact ih u (a + 1)

theorem State.storeEach_erase (s : State) (rs : List Reg) :
    (s.erase o d).storeEach rs = (s.storeEach rs).map (State.erase o d) := by
  induction rs generalizing s with
  | nil => rfl
  | cons r rs ih =>
    rw [State.storeEach, State.storeEach, State.indexed_erase, State.getV_erase, State.writeMem_erase]
    cases s.writeMem (s.indexed r.val) (s.getV r) with
    | error f => rfl
    | ok u => exact ih u

theorem State.loadEach_erase (s : State) (rs : List Reg) :
    (s.erase o d).loadEach rs = (s.loadEach rs).map (State.erase o d) := by
  induction rs generalizing s with
  | nil => rfl
  | cons r rs ih =>
    rw [State.loadEach, State.loadEach, State.indexed_erase, State.readMem_erase]
    cases s.readMem (s.indexed r.val) with
    | error f => rfl
    | ok b => exact ih (s.setV r b)

theorem finish_map (f : State → State) (r : Except Fault State) :
    finish (r.map f) = viewOutcome f (finish r) := by
  cases r <;> rfl

/-! ### Instructions, host transactions and steps of an erased state -/

/-- A commuting operation has the same outcome up to erasure. -/
theorem viewOutcome_of_commutes {r r' : Host.Outcome State Fault Refusal}
    (h : r' = viewOutcome (State.erase o d) r) :
    viewOutcome (State.erase o d) r' = viewOutcome (State.erase o d) r := by
  subst h
  cases r with
  | next s => exact congrArg Host.Outcome.next (State.erase_erase s)
  | fault _ | refused _ => rfl

/-- Only CLS, DRW and Fx18 write an output, and only CALL and RET use the stack; every other instruction
commutes with erasure. -/
theorem exec_erase (i : Instr) (s : State) :
    viewOutcome (State.erase o d) (exec i (s.erase o d)) = viewOutcome (State.erase o d) (exec i s) := by
  cases i with
  | cls => exact congrArg Host.Outcome.next (State.erase_setDirty s.clearFb true)
  | ldStVx x => exact congrArg Host.Outcome.next (State.erase_setSt s (s.getV x))
  | jp _ | jpV0 _ | ldImm _ _ | addImm _ _ | ldReg _ _ | orReg _ _ | andReg _ _ | xorReg _ _ | rnd _ _
  | ldI _ | ldFVx _ | ldVxDt _ | ldDtVx _ | unknownE _ _ | unknownF _ _ | nop0 | nop8Fn8 | nop8Fn9
  | nop8FnA | nop8FnB | nop8FnC | nop8FnD | nop8FnF => exact viewOutcome_of_commutes rfl
  | seImm _ _ | sneImm _ _ | seReg _ _ | sneReg _ _ =>
    exact viewOutcome_of_commutes (congrArg Host.Outcome.next (State.skipIf_erase s _))
  | addReg x _ | subReg x _ | shrReg x _ | subnReg x _ | shlReg x _ =>
    exact viewOutcome_of_commutes (congrArg Host.Outcome.next (State.writeFlagged_erase s x _ _))
  | ret =>
    simp only [exec, execRet]
    cases h : s.sp with
    | empty => rw [State.popReturn_empty h, State.popReturn_empty (s := s.erase o d) h]
    | top j =>
      have hlive : d = true → s.sp.live j = true := fun _ => h ▸ StackPointer.live_top.2 (le_refl _)
      rw [State.popReturn_top h, State.popReturn_top (s := s.erase o d) h, State.getStack_erase_live hlive]
      exact congrArg Host.Outcome.next (State.erase_pop s _ h)
  | call nnn =>
    simp only [exec, execCall]
    cases h : s.sp.push with
    | none => rw [State.pushReturn_full h, State.pushReturn_full (s := s.erase o d) h]
    | some j =>
      rw [State.pushReturn_some h, State.pushReturn_some (s := s.erase o d) h]
      exact congrArg Host.Outcome.next (State.erase_push s _ _ h)
  | drw x y n =>
    change viewOutcome _ (execDrw x y n _) = viewOutcome _ (execDrw x y n s)
    unfold execDrw
    rw [apply_ite (viewOutcome (State.erase o d)), apply_ite (viewOutcome (State.erase o d))]
    refine if_congr Iff.rfl rfl ?_
    rw [← finish_map, ← finish_map, ← State.drawRows_erase, ← State.drawRows_erase, State.erase_setDirty]
    rfl
  | ldBVx x =>
    exact viewOutcome_of_commutes ((congrArg finish (State.storeBytes_erase s _ _)).trans (finish_map _ _))
  | storeRegs x =>
    exact viewOutcome_of_commutes ((congrArg finish (State.storeEach_erase s _)).trans (finish_map _ _))
  | loadRegs x =>
    exact viewOutcome_of_commutes ((congrArg finish (State.loadEach_erase s _)).trans (finish_map _ _))
  | addIVx x =>
    refine viewOutcome_of_commutes ?_
    simp only [exec, execAddIVx, apply_ite (viewOutcome (State.erase o d))]
    rfl
  | skp x | sknp x =>
    refine viewOutcome_of_commutes ?_
    simp only [exec, execSkp, execSknp, State.getV_erase]
    cases keyNumber (s.getV x) with
    | error f => rfl
    | ok k => exact congrArg Host.Outcome.next (State.skipIf_erase s _)
  | ldVxK x =>
    refine viewOutcome_of_commutes ?_
    simp only [exec, execLdVxK, State.kblock_erase]
    cases s.kblock with
    | waitingForRelease => simp only [apply_ite (viewOutcome (State.erase o d))]; rfl
    | idle | locked | unlocked => rfl

/-! ### A step -/

theorem exec_congr {i : Instr} {s t : State} (h : s.erase o d = t.erase o d) :
    viewOutcome (State.erase o d) (exec i s) = viewOutcome (State.erase o d) (exec i t) := by
  rw [← exec_erase i s, h, exec_erase]

theorem tick_erase (s : State) :
    viewOutcome (State.erase o d) (tick (s.erase o d)) = viewOutcome (State.erase o d) (tick s) := by
  have hfetch : (s.erase o d).stepTimers.fetch16 (s.erase o d).pc.toNat =
      s.stepTimers.fetch16 s.pc.toNat := State.fetch16_congr rfl _
  rw [tick, tick, hfetch]
  cases s.stepTimers.fetch16 s.pc.toNat with
  | error f => rfl
  | ok op => exact exec_congr (State.erase_beforeHandler s op)

theorem performHostOp_erase (op : HostOp) (s : State) :
    viewOutcome (State.erase o d) (performHostOp op (s.erase o d)) =
      viewOutcome (State.erase o d) (performHostOp op s) := by
  cases op with
  | load bytes =>
    refine viewOutcome_of_commutes ?_
    simp only [performHostOp, hostLoad, apply_ite (viewOutcome (State.erase o d))]
    rfl
  | reset => exact congrArg Host.Outcome.next (State.erase_hostReset s)
  | keySet code p =>
    refine viewOutcome_of_commutes ?_
    simp only [performHostOp, hostKeySet]
    split
    · exact congrArg Host.Outcome.next (State.noteKey_erase (s.setKey ⟨code, ‹_›⟩ p) _ p)
    · rfl
  | clearDirty => exact congrArg Host.Outcome.next (State.erase_setDirty s false)

/-- Neither ST, DIRTY and LASTINSN nor a dead slot influences a step (R23, R25, R28, R32). -/
theorem step_erase (s : State) :
    viewOutcome (State.erase o d) (step (s.erase o d)) = viewOutcome (State.erase o d) (step s) := by
  rw [step, step, show (s.erase o d).due = s.due from rfl]
  cases s.due with
  | none => exact tick_erase s
  | some p => exact performHostOp_erase p.1 (s.setScript p.2)

end Erasure

/-- Settles O58: the erasure of ST, DIRTY and LASTINSN is one of the two that no step observes. -/
theorem outputsDoNotInfluenceTheRun : Obligations.OutputsDoNotInfluenceTheRun := by
  intro s
  rw [← State.erase_outputs]
  exact step_erase s

/-- Settles O59: the erasure of the slots above SP is the other; a call overwrites the slot it makes live,
and a return makes none live. -/
theorem deadStackSlotsAreUnobservable : Obligations.DeadStackSlotsAreUnobservable := by
  intro s
  rw [← State.erase_slots]
  exact step_erase s

end Sys2Proof.Machine
end

section
/-! PROOFS. The invariant (spec/10_state.md R21, R26, R27; spec/20_memory.md R38): what keeps each of its
bounds, operation by operation, then instruction by instruction, then for a step. -/

namespace Sys2Proof.Machine

/-! ### The operations that write a piece the invariant speaks of -/

section Operations

variable {s t : State}

theorem Inv.setPc {w : Word} (hs : Inv s) (hw : w.toNat ≤ 0x10FE) : Inv (s.setPc w) :=
  ⟨hs.1, hw, hs.2.2⟩

theorem Inv.setStack {j : Fin 16} {w : Word} (hs : Inv s) (hw : w.toNat ≤ 0x1000) :
    Inv (s.setStack j w) := by
  obtain ⟨horigin, hpc, hstack, hcanon⟩ := hs
  refine ⟨horigin, hpc, fun k => ?_, hcanon⟩
  rw [State.getStack_setStack]
  split
  · exact hw
  · exact hstack k

theorem Inv.clearFb (hs : Inv s) : Inv s.clearFb := by
  obtain ⟨horigin, hpc, hstack, hmem, -⟩ := hs
  exact ⟨horigin, hpc, hstack, hmem, rfl⟩

/-- Bytes written inside memory keep its canonical form (R38). -/
theorem Inv.setMem_writeAll {a : Nat} {bs : List Byte} (hs : Inv s) (hfit : a + bs.length ≤ memSize) :
    Inv (s.setMem (Memory.writeAll s.mem a bs)) := by
  obtain ⟨horigin, hpc, hstack, hmem, hfb⟩ := hs
  exact ⟨horigin, hpc, hstack, Memory.wfFrom_writeAll hmem a bs hfit, hfb⟩

/-- The flag and the result are registers, of which the invariant says nothing (R91). -/
theorem Inv.writeFlagged {x : Reg} {flag result : Byte} (hs : Inv s) :
    Inv (s.writeFlagged x flag result) := by
  simpa [Inv] using hs

/-- A key event writes KBLOCK and LASTKEY, of which the invariant says nothing (R129, R130). -/
theorem Inv.noteKey {c : KeyCode} {p : Bool} (hs : Inv s) : Inv (s.noteKey c p) := by
  simpa [Inv, State.getStack] using hs

/-- One row of a sprite, above the bottom of the screen, keeps the framebuffer canonical (R27, R117). -/
theorem Inv.drawColumns {b : Byte} {x0 yp left c : Nat} (hs : Inv s) (hy : yp < fbHeight) :
    Inv (s.drawColumns b x0 yp left c) := by
  obtain ⟨horigin, hpc, hstack, hmem, hfb⟩ := hs
  obtain ⟨hframe, hfb', -⟩ := State.drawColumns_spec hfb (b := b) (x0 := x0) (left := left) (c := c) hy
  rw [hframe]
  exact ⟨horigin, hpc, hstack, hmem, hfb'⟩

/-- A row at the bottom or beyond ends the draw, so every row drawn is on the screen (R117). -/
theorem Inv.of_drawRows {x0 y0 left r : Nat} (hs : Inv s) (h : s.drawRows x0 y0 left r = .ok t) :
    Inv t := by
  induction left generalizing s r with
  | zero => cases h; exact hs
  | succ left ih =>
    rw [State.drawRows] at h
    split at h
    · cases h
    · split at h
      · cases h; exact hs
      · exact ih (hs.drawColumns (Nat.lt_of_not_le ‹_›)) h

/-- A run of stores that answers a state has written inside memory (R40). -/
theorem Inv.of_storeBytes {a : Nat} {bs : List Byte} (hs : Inv s) (hne : bs ≠ [])
    (h : s.storeBytes a bs = .ok t) : Inv t := by
  obtain ⟨hfit, rfl⟩ := eq_of_storeBytes hne h
  exact hs.setMem_writeAll hfit

theorem Inv.of_storeEach {x : Reg} (hs : Inv s) (h : s.storeEach (regsThrough x) = .ok t) : Inv t := by
  rw [State.storeEach_eq (regRun_regsThrough x)] at h
  exact hs.of_storeBytes (by simp [← List.length_pos_iff, length_regsThrough]) h

/-- Loads write registers alone, of which the invariant says nothing. -/
theorem Inv.of_loadEach {rs : List Reg} (hs : Inv s) (h : s.loadEach rs = .ok t) : Inv t := by
  induction rs generalizing s with
  | nil => cases h; exact hs
  | cons r rs ih =>
    rw [State.loadEach] at h
    split at h
    · cases h
    · exact ih (s := s.setV r _) hs h

/-- A return goes to a slot, and no slot is above 0x1000 (R21, R81). -/
theorem Inv.of_popReturn (hs : Inv s) (h : s.popReturn = .ok t) : Inv t := by
  cases hsp : s.sp with
  | empty => rw [State.popReturn_empty hsp] at h; cases h
  | top j =>
    rw [State.popReturn_top hsp] at h
    cases h
    have ⟨_, _, hstack, _⟩ := hs
    exact hs.setPc ((hstack j).trans (by decide))

end Operations

/-! ### The addresses an instruction can jump to -/

theorem zext16_toNat_le (nnn : Addr12) : (zext16 nnn).toNat ≤ 0xFFF := by
  have := nnn.isLt
  simp only [zext16, BitVec.toNat_setWidth]
  omega

/-- The farthest target of `Bnnn`, 0xFFF + 0xFF, is the bound on PC (R21, R84). -/
theorem offsetTarget_toNat_le (nnn : Addr12) (b : Byte) : (offsetTarget nnn b).toNat ≤ 0x10FE := by
  have := nnn.isLt
  have := b.isLt
  simp only [offsetTarget, BitVec.toNat_ofNat]
  omega

/-- The PC a handler sees after a successful fetch: `fetch_pc + 2`, with both fetched bytes in memory
(R41, R74). -/
def State.Fetched (s : State) : Prop := 2 ≤ s.pc.toNat ∧ s.pc.toNat ≤ memSize

theorem State.fetched_advance {s : State} (h : s.pc.toNat + 1 < memSize) (op : Word) :
    (s.stepTimers.advance op).Fetched := by
  simp only [State.Fetched, State.advance_pc, State.stepTimers_pc, memSize] at h ⊢
  bv_omega

section Handlers

variable {s t : State}

/-- A taken skip ends at most at 0x1002 (R21, R80). -/
theorem Inv.skipIf {c : Bool} (hs : Inv s) (hf : s.Fetched) : Inv (s.skipIf c) := by
  unfold State.skipIf
  split
  · obtain ⟨-, hpc⟩ := hf
    refine hs.setPc ?_
    simp only [memSize] at hpc
    bv_omega
  · exact hs

/-- A PC after a fetch is at least 2, so rewinding it does not wrap (R124, D30). -/
theorem Inv.rewind (hs : Inv s) (hf : s.Fetched) : Inv s.rewind := by
  obtain ⟨hlo, hpc⟩ := hf
  refine hs.setPc ?_
  simp only [memSize] at hpc
  bv_omega

/-- A call pushes the PC after its own word, at most 0x1000 (R21, R83). -/
theorem Inv.of_execCall {nnn : Addr12} (hs : Inv s) (hf : s.Fetched) (h : execCall nnn s = .next t) :
    Inv t := by
  unfold execCall at h
  obtain ⟨-, hpush⟩ | ⟨j, -, hpush⟩ := s.pushReturn_eq s.pc <;> rw [hpush] at h <;> cases h
  have hpushed : Inv ((s.setSp (.top j)).setStack j s.pc) := Inv.setStack (s := s.setSp _) hs hf.2
  exact hpushed.setPc ((zext16_toNat_le nnn).trans (by decide))

theorem Inv.of_execLdVxK {x : Reg} (hs : Inv s) (hf : s.Fetched) (h : execLdVxK x s = .next t) :
    Inv t := by
  have hrewind : Inv s.rewind := hs.rewind hf
  unfold execLdVxK at h
  split at h
  · cases h; exact hrewind
  · cases h; exact hrewind
  · split at h <;> cases h <;> exact hrewind
  · cases h; exact hs

/-- Every instruction, run after its fetch, keeps the invariant. -/
theorem Inv.of_exec {i : Instr} (hs : Inv s) (hf : s.Fetched) (h : exec i s = .next t) : Inv t := by
  cases i with
  | cls => cases h; exact hs.clearFb
  | ret => exact hs.of_popReturn (finish_eq_next.1 h)
  | call nnn => exact hs.of_execCall hf h
  | jp nnn => cases h; exact hs.setPc ((zext16_toNat_le nnn).trans (by decide))
  | jpV0 nnn => cases h; exact hs.setPc (offsetTarget_toNat_le nnn _)
  | seImm _ _ | sneImm _ _ | seReg _ _ | sneReg _ _ => cases h; exact hs.skipIf hf
  | skp x | sknp x =>
    simp only [exec, execSkp, execSknp] at h
    split at h <;> cases h
    exact hs.skipIf hf
  | addReg _ _ | subReg _ _ | shrReg _ _ | subnReg _ _ | shlReg _ _ => cases h; exact hs.writeFlagged
  | drw x y n =>
    simp only [exec, execDrw] at h
    split at h
    · cases h
    · exact Inv.of_drawRows (s := s.setDirty true) hs (finish_eq_next.1 h)
  | ldBVx x => exact hs.of_storeBytes (by simp) (finish_eq_next.1 h)
  | storeRegs x => exact hs.of_storeEach (finish_eq_next.1 h)
  | loadRegs x => exact hs.of_loadEach (finish_eq_next.1 h)
  | ldVxK x => exact hs.of_execLdVxK hf h
  | addIVx x =>
    simp only [exec, execAddIVx] at h
    split at h <;> cases h
    exact hs
  | ldImm _ _ | addImm _ _ | ldReg _ _ | orReg _ _ | andReg _ _ | xorReg _ _ | rnd _ _ | ldI _ | ldFVx _
  | ldVxDt _ | ldDtVx _ | ldStVx _ | unknownE _ _ | unknownF _ _ | nop0 | nop8Fn8 | nop8Fn9 | nop8FnA
  | nop8FnB | nop8FnC | nop8FnD | nop8FnF => cases h; exact hs

end Handlers

/-! ### Host transactions and steps -/

/-- A reset sets PC to ORIGIN, which is admissible, and clears the arrays and the stack (R9, R37). -/
theorem Inv.hostReset {s : State} (hs : Inv s) : Inv (hostReset s) := by
  obtain ⟨horigin, -⟩ := hs
  exact ⟨horigin, horigin.trans (by decide), fun j => by simp [Machine.hostReset, State.getStack], rfl, rfl⟩

theorem Inv.of_performHostOp {op : HostOp} {s t : State} (hs : Inv s)
    (h : performHostOp op s = .next t) : Inv t := by
  obtain ⟨_, -, hfit, rfl⟩ | ⟨-, rfl⟩ | ⟨c, p, -, rfl⟩ | ⟨-, rfl⟩ := performHostOp_next h
  · exact hs.setMem_writeAll hfit
  · exact hs.hostReset
  · exact Inv.noteKey (s := s.setKey c p) hs
  · exact hs

/-- Settles O56: a step is a host transaction on the state without it in the script, or an instruction
run after the timer step, the fetch and the advance. -/
theorem stepKeepsInvariant : Obligations.StepKeepsInvariant := by
  intro s t hs h
  obtain ⟨op, ops, -, hop⟩ | ⟨-, hpc, hexec⟩ := step_next h
  · exact Inv.of_performHostOp (s := s.setScript ops) hs hop
  · have hf := s.fetched_advance hpc s.nextWord
    obtain ⟨horigin, -, hrest⟩ := hs
    have hadvanced : Inv (s.stepTimers.advance s.nextWord) := ⟨horigin, hf.2.trans (by decide), hrest⟩
    exact hadvanced.of_exec hf hexec

end Sys2Proof.Machine
end

section
/-! PROOFS. The opcode map (spec/30_encoding.md R58-R65): each group with a secondary key as one equation
on its packed words, the round trip of the encoder, and the row of the opcode table a word falls in. -/

namespace Sys2Proof

/-- A 4-bit field has sixteen values. -/
theorem nibble_cases (n : Nibble) :
    n = 0x0#4 ∨ n = 0x1#4 ∨ n = 0x2#4 ∨ n = 0x3#4 ∨ n = 0x4#4 ∨ n = 0x5#4 ∨ n = 0x6#4 ∨ n = 0x7#4 ∨
      n = 0x8#4 ∨ n = 0x9#4 ∨ n = 0xA#4 ∨ n = 0xB#4 ∨ n = 0xC#4 ∨ n = 0xD#4 ∨ n = 0xE#4 ∨ n = 0xF#4 := by
  revert n; decide

/-! ### The groups with a secondary key, on packed words -/

theorem decodeWord_group8 (key : Group0Key) (x y : Reg) (n : Nibble) :
    decodeWord key (packXYN 0x8#4 x y n) = decodeGroup8 x y n := by
  simp [decodeWord]

theorem decodeWord_groupE (key : Group0Key) (x : Reg) (kk : Byte) :
    decodeWord key (packXK 0xE#4 x kk) = decodeGroupE x kk := by
  simp [decodeWord]

theorem decodeWord_groupF (key : Group0Key) (x : Reg) (kk : Byte) :
    decodeWord key (packXK 0xF#4 x kk) = decodeGroupF x kk := by
  simp [decodeWord]

theorem mem_groupEKeys {kk : Byte} : kk ∈ groupEKeys ↔ kk = 0x9E#8 ∨ kk = 0xA1#8 := by
  simp [groupEKeys]

theorem mem_groupFKeys {kk : Byte} : kk ∈ groupFKeys ↔
    kk = 0x07#8 ∨ kk = 0x0A#8 ∨ kk = 0x15#8 ∨ kk = 0x18#8 ∨ kk = 0x1E#8 ∨ kk = 0x29#8 ∨ kk = 0x33#8 ∨
      kk = 0x55#8 ∨ kk = 0x65#8 := by
  simp [groupFKeys]

theorem decodeGroupE_unmapped {kk : Byte} (x : Reg) (h : kk ∉ groupEKeys) :
    decodeGroupE x kk = .unknownE x kk := by
  simp_all [mem_groupEKeys, decodeGroupE]

theorem decodeGroupF_unmapped {kk : Byte} (x : Reg) (h : kk ∉ groupFKeys) :
    decodeGroupF x kk = .unknownF x kk := by
  simp_all [mem_groupFKeys, decodeGroupF]

theorem wellFormed_unknownE {x : Reg} {kk : Byte} :
    (Instr.unknownE x kk).wellFormed = true ↔ kk ∉ groupEKeys := by
  simp [Instr.wellFormed]

theorem wellFormed_unknownF {x : Reg} {kk : Byte} :
    (Instr.unknownF x kk).wellFormed = true ↔ kk ∉ groupFKeys := by
  simp [Instr.wellFormed]

/-! ### Decoding what the encoder gives -/

/-- Settles O2, by the formats of the encoder's words; well-formedness is what tells an Unknown-Opcode
term from the instructions of its group. -/
theorem decodeOfEncodeIsTheInstruction : Obligations.DecodeOfEncodeIsTheInstruction := by
  intro key i hwf
  cases i with
  | cls | ret | nop0 => cases key <;> rfl
  | nop8Fn8 | nop8Fn9 | nop8FnA | nop8FnB | nop8FnC | nop8FnD | nop8FnF => rfl
  | jp _ | call _ | ldI _ | jpV0 _ | seImm _ _ | sneImm _ _ | ldImm _ _ | addImm _ _ | rnd _ _
  | seReg _ _ | sneReg _ _ | drw _ _ _ => simp [encode, decodeWord]
  | ldReg x y | orReg x y | andReg x y | xorReg x y | addReg x y | subReg x y | shrReg x y | subnReg x y
  | shlReg x y => exact decodeWord_group8 key x y _
  | skp x | sknp x => exact decodeWord_groupE key x _
  | ldVxDt x | ldVxK x | ldDtVx x | ldStVx x | addIVx x | ldFVx x | ldBVx x | storeRegs x | loadRegs x =>
    exact decodeWord_groupF key x _
  | unknownE x kk =>
    exact (decodeWord_groupE key x kk).trans (decodeGroupE_unmapped x (wellFormed_unknownE.mp hwf))
  | unknownF x kk =>
    exact (decodeWord_groupF key x kk).trans (decodeGroupF_unmapped x (wellFormed_unknownF.mp hwf))

/-! ### The row of a word -/

/-- The instruction is one the decoder can produce, the word is in its opcode-table row, and the word's
operand bits are those the encoder gives the instruction. -/
def InRow (w : Word) (i : Instr) : Prop :=
  i.wellFormed = true ∧ w &&& (opcodeRow i).mask = (opcodeRow i).pattern ∧
    encode i &&& (opcodeRow i).operands = w &&& (opcodeRow i).operands

theorem InRow.of_eq {w w' : Word} {i : Instr} (h : InRow w i) (hw : w = w') : InRow w' i := hw ▸ h

/-- The encoder's own word is in the row. -/
theorem InRow.of_encode {w : Word} {i : Instr} (hrow : Laws.Row.Statement i)
    (hwf : i.wellFormed = true) (hw : encode i = w) : InRow w i := by
  subst hw
  exact ⟨hwf, hrow.1, rfl⟩

/-- A row without operands is met by its mask and pattern alone. -/
theorem InRow.of_noOperands {w : Word} {i : Instr} (hwf : i.wellFormed = true)
    (hw : w &&& (opcodeRow i).mask = (opcodeRow i).pattern) (hops : (opcodeRow i).operands = 0#16) :
    InRow w i :=
  ⟨hwf, hw, by simp [hops]⟩

theorem packA_of_group {w : Word} {g : Nibble} (h : opG w = g) : packA g (opNnn w) = w :=
  h ▸ packA_fields w

theorem packXK_of_group {w : Word} {g : Nibble} (h : opG w = g) : packXK g (opX w) (opKk w) = w :=
  h ▸ packXK_fields w

theorem packXYN_of_group {w : Word} {g : Nibble} (h : opG w = g) :
    packXYN g (opX w) (opY w) (opN w) = w :=
  h ▸ packXYN_fields w

/-- The bits of the two register fields do not depend on the low nibble. -/
theorem packXYN_and_registers (g : Nibble) (x y : Reg) (n n' : Nibble) :
    packXYN g x y n &&& 0x0FF0#16 = packXYN g x y n' &&& 0x0FF0#16 := by
  apply BitVec.eq_of_getLsbD_eq
  intro i hi
  simp only [packXYN, BitVec.getLsbD_and, BitVec.getLsbD_append]
  by_cases h : i < 4
  · have hmask : ∀ i < 4, (0x0FF0#16).getLsbD i = false := by decide
    simp only [hmask i h, Bool.and_false]
  · simp [h]

theorem inRow_seReg (x y : Reg) (n : Nibble) : InRow (packXYN 0x5#4 x y n) (.seReg x y) :=
  ⟨rfl, packXYN_and_group _ _ _ _, packXYN_and_registers _ _ _ _ _⟩

theorem inRow_sneReg (x y : Reg) (n : Nibble) : InRow (packXYN 0x9#4 x y n) (.sneReg x y) :=
  ⟨rfl, packXYN_and_group _ _ _ _, packXYN_and_registers _ _ _ _ _⟩

theorem inRow_group0 {w : Word} (h : opG w = 0x0#4) : InRow w (decodeGroup0 .byte w) := by
  rw [← packXK_of_group h]
  simp only [decodeGroup0, opKk_packXK]
  split_ifs with hcls hret
  · rw [hcls]; exact .of_noOperands rfl (packXK_and_key _ _ _) rfl
  · rw [hret]; exact .of_noOperands rfl (packXK_and_key _ _ _) rfl
  · exact .of_noOperands rfl (packXK_and_group _ _ _) rfl

theorem inRow_group8 (x y : Reg) (n : Nibble) : InRow (packXYN 0x8#4 x y n) (decodeGroup8 x y n) := by
  obtain rfl | rfl | rfl | rfl | rfl | rfl | rfl | rfl | rfl | rfl | rfl | rfl | rfl | rfl | rfl | rfl :=
    nibble_cases n
  · exact .of_encode (Laws.Row.ldReg x y) rfl rfl
  · exact .of_encode (Laws.Row.orReg x y) rfl rfl
  · exact .of_encode (Laws.Row.andReg x y) rfl rfl
  · exact .of_encode (Laws.Row.xorReg x y) rfl rfl
  · exact .of_encode (Laws.Row.addReg x y) rfl rfl
  · exact .of_encode (Laws.Row.subReg x y) rfl rfl
  · exact .of_encode (Laws.Row.shrReg x y) rfl rfl
  · exact .of_encode (Laws.Row.subnReg x y) rfl rfl
  · exact .of_noOperands rfl (packXYN_and_key _ x y _) rfl
  · exact .of_noOperands rfl (packXYN_and_key _ x y _) rfl
  · exact .of_noOperands rfl (packXYN_and_key _ x y _) rfl
  · exact .of_noOperands rfl (packXYN_and_key _ x y _) rfl
  · exact .of_noOperands rfl (packXYN_and_key _ x y _) rfl
  · exact .of_noOperands rfl (packXYN_and_key _ x y _) rfl
  · exact .of_encode (Laws.Row.shlReg x y) rfl rfl
  · exact .of_noOperands rfl (packXYN_and_key _ x y _) rfl

theorem inRow_groupE (x : Reg) (kk : Byte) : InRow (packXK 0xE#4 x kk) (decodeGroupE x kk) := by
  by_cases h : kk ∈ groupEKeys
  · obtain rfl | rfl := mem_groupEKeys.mp h
    · exact .of_encode (Laws.Row.skp x) rfl rfl
    · exact .of_encode (Laws.Row.sknp x) rfl rfl
  · rw [decodeGroupE_unmapped x h]
    exact .of_encode (Laws.Row.unknownE x kk) (wellFormed_unknownE.mpr h) rfl

theorem inRow_groupF (x : Reg) (kk : Byte) : InRow (packXK 0xF#4 x kk) (decodeGroupF x kk) := by
  by_cases h : kk ∈ groupFKeys
  · obtain rfl | rfl | rfl | rfl | rfl | rfl | rfl | rfl | rfl := mem_groupFKeys.mp h
    · exact .of_encode (Laws.Row.ldVxDt x) rfl rfl
    · exact .of_encode (Laws.Row.ldVxK x) rfl rfl
    · exact .of_encode (Laws.Row.ldDtVx x) rfl rfl
    · exact .of_encode (Laws.Row.ldStVx x) rfl rfl
    · exact .of_encode (Laws.Row.addIVx x) rfl rfl
    · exact .of_encode (Laws.Row.ldFVx x) rfl rfl
    · exact .of_encode (Laws.Row.ldBVx x) rfl rfl
    · exact .of_encode (Laws.Row.storeRegs x) rfl rfl
    · exact .of_encode (Laws.Row.loadRegs x) rfl rfl
  · rw [decodeGroupF_unmapped x h]
    exact .of_encode (Laws.Row.unknownF x kk) (wellFormed_unknownF.mpr h) rfl

/-- Settles O3, by the sixteen groups of the opcode map. -/
theorem everyWordDecodesToItsRow : Obligations.EveryWordDecodesToItsRow := by
  intro w
  change InRow w (decodeWord .byte w)
  obtain h | h | h | h | h | h | h | h | h | h | h | h | h | h | h | h :=
    nibble_cases (opG w) <;> simp only [decodeWord, h]
  · exact inRow_group0 h
  · exact .of_encode (Laws.Row.jp _) rfl (packA_of_group h)
  · exact .of_encode (Laws.Row.call _) rfl (packA_of_group h)
  · exact .of_encode (Laws.Row.seImm _ _) rfl (packXK_of_group h)
  · exact .of_encode (Laws.Row.sneImm _ _) rfl (packXK_of_group h)
  · exact (inRow_seReg _ _ _).of_eq (packXYN_of_group h)
  · exact .of_encode (Laws.Row.ldImm _ _) rfl (packXK_of_group h)
  · exact .of_encode (Laws.Row.addImm _ _) rfl (packXK_of_group h)
  · exact (inRow_group8 _ _ _).of_eq (packXYN_of_group h)
  · exact (inRow_sneReg _ _ _).of_eq (packXYN_of_group h)
  · exact .of_encode (Laws.Row.ldI _) rfl (packA_of_group h)
  · exact .of_encode (Laws.Row.jpV0 _) rfl (packA_of_group h)
  · exact .of_encode (Laws.Row.rnd _ _) rfl (packXK_of_group h)
  · exact .of_encode (Laws.Row.drw _ _ _) rfl (packXYN_of_group h)
  · exact (inRow_groupE _ _).of_eq (packXK_of_group h)
  · exact (inRow_groupF _ _).of_eq (packXK_of_group h)

/-! ### Words selected by their secondary key -/

/-- Settles O6, by the equations of the two groups. -/
theorem groupsEAndFSelectByByte : Obligations.GroupsEAndFSelectByByte := by
  intro key x kk
  simp only [decodeWord_groupE, decodeWord_groupF]
  refine ⟨rfl, ?_, ?_, ?_, ?_, ?_, ?_, ?_, ?_, ?_, decodeGroupF_unmapped x⟩ <;> rintro rfl <;> rfl

/-- Settles O5, by the equation of the group at each of the sixteen nibbles. -/
theorem groupEightSelectsByNibble : Obligations.GroupEightSelectsByNibble := by
  intro key x y
  simp only [decodeWord_group8]
  rfl

/-- Settles O1, by running the decoder on the seventeen words. -/
theorem opcodeMapWordsDecode : Obligations.OpcodeMapWordsDecode := by
  unfold Obligations.OpcodeMapWordsDecode
  decide

end Sys2Proof
end

section
/-! PROOFS. The register skips (spec/41_control_flow.md R80, R85-R88). -/

namespace Sys2Proof.Machine

/-- A skip completes, moves PC past one word when its test holds, and writes nothing else (R80). -/
theorem skipIf_completes (s : State) {test : Bool} {p : Prop} [Decidable p] (h : test = true ↔ p) :
    ∃ t, (.next (s.skipIf test) : Host.Outcome State Fault Refusal) = .next t ∧
      t.pc = (if p then BitVec.ofNat 16 (s.pc.toNat + 2) else s.pc) ∧ ChangesOnly (· = .pc) s t := by
  refine ⟨_, rfl, ?_, changesOnly_skipIf s test⟩
  have hadd : BitVec.ofNat 16 (s.pc.toNat + 2) = s.pc + 2#16 := by bv_omega
  simp only [State.skipIf_pc, h, hadd]

/-- Settles O17: decoding drops the low nibble of `5xyn` and `9xyn`, and each handler is `skipIf` of its
test. -/
theorem skipsAddTwoWhenTheTestHolds : Obligations.SkipsAddTwoWhenTheTestHolds := by
  intro x y n kk s
  refine ⟨fun key => ?_, ?_, ?_, ?_, ?_⟩
  · simp [decodeWord]
  · exact skipIf_completes s beq_iff_eq
  · exact skipIf_completes s bne_iff_ne
  · exact skipIf_completes s beq_iff_eq
  · exact skipIf_completes s bne_iff_ne

end Sys2Proof.Machine
end

section
/-! PROOFS. Group 0 of the opcode map (spec/30_encoding.md R59). -/

namespace Sys2Proof

/-- A word below 0x1000 is of group 0 (R13). -/
theorem opG_of_lt {w : Word} (h : w.toNat < 0x1000) : opG w = 0x0#4 := by
  apply BitVec.eq_of_toNat_eq
  simp [opG, BitVec.extractLsb'_toNat, Nat.shiftRight_eq_div_pow, Nat.div_eq_of_lt h]

/-- Group 0 holds CLS, RET and the no-op, whatever its secondary key (R59). -/
theorem decodeGroup0_cases (key : Group0Key) (w : Word) :
    decodeGroup0 key w = .cls ∨ decodeGroup0 key w = .ret ∨ decodeGroup0 key w = .nop0 := by
  cases key <;> simp only [decodeGroup0] <;> split_ifs <;> simp

theorem decodeWord_group0 (key : Group0Key) {w : Word} (h : opG w = 0x0#4) :
    decodeWord key w = decodeGroup0 key w := by
  simp [decodeWord, h]

end Sys2Proof
end

section
/-! PROOFS. The tick and the dispatch (spec/40_tick_and_dispatch.md R70-R76): the parts of a tick before the
handler, what every instruction keeps of them, and the tolerated no-ops. -/

namespace Sys2Proof.Machine

/-! ### The parts of a tick before the handler (R70, R71, R73) -/

/-- PC after the advance, as the sum modulo 65536 (R73). -/
theorem State.advance_pc_eq_ofNat (s : State) (op : Word) :
    (s.advance op).pc = BitVec.ofNat 16 (s.pc.toNat + 2) := rfl

/-- The timer step and the advance write the timers, PC, LASTINSN and the model's bookkeeping alone. -/
theorem changesOnly_beforeHandler (s : State) (op : Word) :
    ChangesOnly (fun p => p = .pc ∨ p = .dt ∨ p = .st ∨ p = .lastInsn ∨ p = .ticks ∨ p = .result) s
      (s.stepTimers.advance op) := by
  intro p hp
  cases p with
  | pc | dt | st | lastInsn | ticks | result => simp at hp
  | _ => rfl

/-- Settles O7, by the equation of a step that ticks; the state named is that after the timer step and the
advance. -/
theorem stepRunsTheDecodedInstruction : Obligations.StepRunsTheDecodedInstruction := by
  rintro s _ _ hdue hpc rfl rfl
  calc step s
      = exec s.nextInstr (s.stepTimers.advance s.nextWord) := step_eq ⟨hdue, hpc⟩
    _ = _ := rfl

/-! ### What every instruction leaves of a tick (R71, R72) -/

/-- The tick's own record, LASTINSN and the tick count, is in no instruction's frame. -/
theorem not_mayDisturb_tickRecord (i : Instr) (s : State) :
    ¬ mayDisturb i s .lastInsn ∧ ¬ mayDisturb i s .ticks := by
  cases i <;> simp [mayDisturb, mayWrite, Piece.isCell]

/-- Only `Fx15` writes DT (R24, R122). -/
theorem not_mayDisturb_dt {i : Instr} (h : ∀ x, i ≠ .ldDtVx x) (s : State) : ¬ mayDisturb i s .dt := by
  cases i with
  | ldDtVx x => exact absurd rfl (h x)
  | _ => simp [mayDisturb, mayWrite, Piece.isCell]

/-- Only `Fx18` writes ST (R25, R123). -/
theorem not_mayDisturb_st {i : Instr} (h : ∀ x, i ≠ .ldStVx x) (s : State) : ¬ mayDisturb i s .st := by
  cases i with
  | ldStVx x => exact absurd rfl (h x)
  | _ => simp [mayDisturb, mayWrite, Piece.isCell]

/-- Settles O9: the parts of a tick before the handler set these pieces, and the frame of the instruction
keeps them. -/
theorem everyTickStepsTimersAndRecordsWord : Obligations.EveryTickStepsTimersAndRecordsWord := by
  intro s t hs h
  rw [step_eq hs] at h
  have hframe := exec_frame h
  obtain ⟨hinsn, hticks⟩ := not_mayDisturb_tickRecord s.nextInstr (s.stepTimers.advance s.nextWord)
  refine ⟨hframe .lastInsn hinsn, hframe .ticks hticks, fun hi => ?_, fun hi => ?_⟩
  · have hdt : t.dt = countDown s.dt := hframe .dt (not_mayDisturb_dt hi _)
    rw [hdt, countDown_toNat]
  · have hst : t.st = countDown s.st := hframe .st (not_mayDisturb_st hi _)
    rw [hst, countDown_toNat]

/-! ### The tolerated no-ops (R76) -/

/-- The tolerated no-ops of groups 0 and 8 (R76). -/
def toleratedNoOps : List Instr :=
  [.nop0, .nop8Fn8, .nop8Fn9, .nop8FnA, .nop8FnB, .nop8FnC, .nop8FnD, .nop8FnF]

theorem exec_of_mem_toleratedNoOps {i : Instr} (hi : i ∈ toleratedNoOps) (s : State) :
    exec i s = .next s := by
  simp only [toleratedNoOps, List.mem_cons, List.not_mem_nil, or_false] at hi
  rcases hi with rfl | rfl | rfl | rfl | rfl | rfl | rfl | rfl <;> rfl

/-- Settles O10: the decoder's two groups by their equations, and a tick of a no-op is the parts before the
handler alone. -/
theorem toleratedNoOpsChangeNothing : Obligations.ToleratedNoOpsChangeNothing := by
  refine ⟨fun key w hw => ?_, fun key x y => ?_, fun i s hi => ⟨exec_of_mem_toleratedNoOps hi s, ?_⟩⟩
  · rw [decodeWord_group0 key (opG_of_lt hw)]
    exact decodeGroup0_cases key w
  · simp only [decodeWord_group8]
    rfl
  · intro hs hnext
    have hstep : step s = .next (s.stepTimers.advance s.nextWord) := by
      rw [step_eq hs, hnext]
      exact exec_of_mem_toleratedNoOps hi _
    exact ⟨_, hstep, State.advance_pc_eq_ofNat _ _, rfl, countDown_toNat s.dt, countDown_toNat s.st, rfl,
      changesOnly_beforeHandler s s.nextWord⟩

end Sys2Proof.Machine
end

section
/-! PROOFS. The jumps (spec/41_control_flow.md R82, R84). -/

namespace Sys2Proof.Machine

theorem zext16_toNat (nnn : Addr12) : (zext16 nnn).toNat = nnn.toNat :=
  BitVec.toNat_setWidth_of_le (by decide)

/-- The sum of a 12-bit address and a byte fits in PC, so R84's `trunc16` drops nothing. -/
theorem offsetTarget_toNat (nnn : Addr12) (v0 : Byte) :
    (offsetTarget nnn v0).toNat = nnn.toNat + v0.toNat := by
  have hnnn := nnn.isLt
  have hv0 := v0.isLt
  rw [offsetTarget, BitVec.toNat_ofNat, Nat.mod_eq_of_lt (by omega)]

/-- Settles O13: a jump is one `setPc`, and neither target loses a bit in PC's 16. -/
theorem jumpsReplaceThePc : Obligations.JumpsReplaceThePc := by
  intro nnn s
  refine ⟨fun key => ⟨?_, ?_⟩, ⟨_, rfl, ?_, changesOnly_setPc s _⟩, ⟨_, rfl, ?_, changesOnly_setPc s _⟩⟩
  · exact decodeOfEncodeIsTheInstruction key (.jp nnn) rfl
  · exact decodeOfEncodeIsTheInstruction key (.jpV0 nnn) rfl
  · exact zext16_toNat nnn
  · exact offsetTarget_toNat nnn (s.getV 0)

end Sys2Proof.Machine
end

section
/-! PROOFS. Register loads, arithmetic, logic and shifts (spec/42_alu.md R90-R103): what the two ways of
writing a result leave, the result and the flag of each operation as arithmetic on its operands, and the
obligations assembled from them. -/

namespace Sys2Proof.Machine

/-! ### The two ways an operation writes its result -/

theorem State.getV_setV_same (s : State) (x : Reg) (b : Byte) : (s.setV x b).getV x = b := by
  simp

/-- A flag-setting operation completes with its result in Vx, unless VF is left free, and with its flag in
VF, unless VF is Vx; it writes nothing else (R91). -/
theorem writeFlagged_completes (s : State) (x : Reg) {flag result : Byte} (ResultOk FlagOk : Byte → Prop)
    (hresult : ResultOk result) (hflag : FlagOk flag) :
    ∃ t, (.next (s.writeFlagged x flag result) : Host.Outcome State Fault Refusal) = .next t ∧
      (¬ s.freeFlag x → ResultOk (t.getV x) ∧ t.draws = s.draws) ∧
      (x ≠ regVF → FlagOk (t.getV regVF)) ∧
      ChangesOnly (fun p => p = .v x ∨ p = .v regVF ∨ p = .draws) s t := by
  refine ⟨_, rfl, fun hfree => ?_, fun hx => ?_, ?_⟩
  · rw [State.writeFlagged_eq hfree]
    exact ⟨(State.getV_setV_same _ x result).symm ▸ hresult, rfl⟩
  · have hvf : (s.writeFlagged x flag result).getV regVF = flag := by
      simp [State.getV_writeFlagged, hx.symm]
    exact hvf.symm ▸ hflag
  · exact (changesOnly_writeFlagged s x flag result).mono fun p hp => hp.imp_right (Or.imp_right And.left)

/-! ### Results and flags as arithmetic on the operands -/

/-- The result of `8xy5` and `8xy7` (R97, R98). -/
theorem toNat_sub_emod (a b : Byte) : ((a - b).toNat : Int) = (a.toNat - b.toNat : Int) % 256 := by
  rw [BitVec.toNat_sub]
  omega

/-- The flag of `8xy4` (R96). -/
theorem carryFlag_eq (a b : Byte) : carryFlag a b = if a.toNat + b.toNat > 255 then 1#8 else 0#8 := by
  simp [carryFlag, flagByte_eq]

theorem comparedValue_unsigned (b : Byte) : comparedValue .unsigned b = b.toNat := by
  simp [comparedValue]

theorem comparedValue_signed8 (b : Byte) : comparedValue .signed8 b = b.toInt := by
  simp only [comparedValue, BitVec.toInt_eq_toNat_cond, true_and]
  split_ifs <;> omega

/-- Both values of `SUB_COMPARE` compare the operands as the integers `comparedValue` reads (R92). -/
theorem greater_iff (cmp : SubCompare) (a b : Byte) :
    greater cmp a b = true ↔ comparedValue cmp a > comparedValue cmp b := by
  cases cmp with
  | unsigned => simp [greater, comparedValue_unsigned]
  | signed8 => simp [greater, comparedValue_signed8]

/-- The flag of `8xy5` and `8xy7` (R97, R98). -/
theorem flagByte_greater (cmp : SubCompare) (a b : Byte) :
    flagByte (greater cmp a b) = if comparedValue cmp a > comparedValue cmp b then 1#8 else 0#8 := by
  simp only [flagByte_eq, greater_iff]

theorem toNat_ushiftRight_one (a : Byte) : (a >>> 1).toNat = a.toNat / 2 := by
  rw [BitVec.toNat_ushiftRight, Nat.shiftRight_eq_div_pow, pow_one]

theorem toNat_shiftLeft_one (a : Byte) : (a <<< 1).toNat = a.toNat * 2 % 256 := by
  rw [BitVec.toNat_shiftLeft, Nat.shiftLeft_eq, pow_one]

/-- The flag of `8xy6` (R102). -/
theorem shiftRightFlag_toNat (a : Byte) : (shiftRightFlag a).toNat = a.toNat % 2 :=
  (BitVec.toNat_and a 0x01#8).trans (Nat.and_one_is_mod _)

/-- The flag of `8xyE`: bit 7 at its own weight (R103). -/
theorem shiftLeftFlag_eq (a : Byte) :
    shiftLeftFlag a = if 0x80 ≤ a.toNat then 0x80#8 else 0x00#8 := by
  have hbit : a.getLsbD 7 = decide (0x80 ≤ a.toNat) := BitVec.msb_eq_decide a
  calc shiftLeftFlag a
      = if a.getLsbD 7 then 0x80#8 else 0x00#8 := BitVec.and_twoPow a 7
    _ = if 0x80 ≤ a.toNat then 0x80#8 else 0x00#8 := by simp only [hbit, decide_eq_true_eq]

/-! ### The obligations -/

/-- Settles O20: `8xy4` is `writeFlagged` of the carry and the sum. -/
theorem addRegistersSetsCarryThenSum : Obligations.AddRegistersSetsCarryThenSum := by
  intro x y s
  refine ⟨fun key => decodeWord_group8 key x y _, ?_⟩
  exact writeFlagged_completes s x
    (fun r => r.toNat = ((s.getV x).toNat + (s.getV y).toNat) % 256)
    (fun f => f = if (s.getV x).toNat + (s.getV y).toNat > 255 then 1#8 else 0#8)
    (BitVec.toNat_add _ _) (carryFlag_eq _ _)

/-- A subtraction is `writeFlagged` of the comparison and the difference (R97, R98). -/
theorem subtraction_completes (s : State) (x : Reg) (a b : Byte) :
    ∃ t, (.next (s.writeFlagged x (flagByte (greater s.cfg.subCompare a b)) (a - b)) :
        Host.Outcome State Fault Refusal) = .next t ∧
      (¬ s.freeFlag x → ((t.getV x).toNat : Int) = (a.toNat - b.toNat : Int) % 256 ∧ t.draws = s.draws) ∧
      (x ≠ regVF → t.getV regVF =
        if comparedValue s.cfg.subCompare a > comparedValue s.cfg.subCompare b then 1#8 else 0#8) ∧
      ChangesOnly (fun p => p = .v x ∨ p = .v regVF ∨ p = .draws) s t :=
  writeFlagged_completes s x (fun r => (r.toNat : Int) = (a.toNat - b.toNat : Int) % 256) (fun f => f = _)
    (toNat_sub_emod a b) (flagByte_greater _ a b)

/-- Settles O21: `8xy5` and `8xy7` are one subtraction with the operands exchanged. -/
theorem subtractionsSetGreaterThenDifference : Obligations.SubtractionsSetGreaterThenDifference := by
  intro x y s
  refine ⟨fun key => ⟨decodeWord_group8 key x y _, decodeWord_group8 key x y _⟩, ?_, ?_⟩
  · exact subtraction_completes s x (s.getV x) (s.getV y)
  · exact subtraction_completes s x (s.getV y) (s.getV x)

/-- Settles O23: each shift is `writeFlagged` of the bit shifted out and the shifted operand. -/
theorem shiftsSetTheBitShiftedOut : Obligations.ShiftsSetTheBitShiftedOut := by
  intro x y s
  refine ⟨fun key => ⟨decodeWord_group8 key x y _, decodeWord_group8 key x y _⟩, ?_, ?_⟩
  · exact writeFlagged_completes s x
      (fun r => r.toNat = (s.getV x).toNat / 2)
      (fun f => f.toNat = (s.getV x).toNat % 2)
      (toNat_ushiftRight_one _) (shiftRightFlag_toNat _)
  · exact writeFlagged_completes s x
      (fun r => r.toNat = (s.getV x).toNat * 2 % 256)
      (fun f => f = if 0x80 ≤ (s.getV x).toNat then 0x80#8 else 0x00#8)
      (toNat_shiftLeft_one _) (shiftLeftFlag_eq _)

/-- Settles O18: a load is one `setV`. -/
theorem loadsWriteOneRegister : Obligations.LoadsWriteOneRegister := by
  intro x y kk s
  refine ⟨fun key => ⟨?_, decodeWord_group8 key x y _⟩, ?_, ?_⟩
  · exact decodeOfEncodeIsTheInstruction key (.ldImm x kk) rfl
  · exact ⟨_, rfl, s.getV_setV_same x kk, changesOnly_setV s x _⟩
  · exact ⟨_, rfl, s.getV_setV_same x _, changesOnly_setV s x _⟩

/-- Settles O19: the immediate addition is one `setV` of the sum of two bytes. -/
theorem addImmediateWrapsWithoutFlag : Obligations.AddImmediateWrapsWithoutFlag := by
  intro x kk s
  refine ⟨fun key => decodeOfEncodeIsTheInstruction key (.addImm x kk) rfl, ?_⟩
  refine ⟨_, rfl, ?_, changesOnly_setV s x _⟩
  rw [State.getV_setV_same, BitVec.toNat_add]

/-- Settles O22: a logic operation is one `setV`, and its bits are those of the library's bitwise
operation. -/
theorem logicWritesOneRegister : Obligations.LogicWritesOneRegister := by
  intro x y s
  refine ⟨fun key => ⟨?_, ?_, ?_⟩, ⟨_, rfl, fun k => ?_, changesOnly_setV s x _⟩,
    ⟨_, rfl, fun k => ?_, changesOnly_setV s x _⟩, ⟨_, rfl, fun k => ?_, changesOnly_setV s x _⟩⟩
  · exact decodeWord_group8 key x y _
  · exact decodeWord_group8 key x y _
  · exact decodeWord_group8 key x y _
  · rw [State.getV_setV_same, BitVec.getLsbD_or]
  · rw [State.getV_setV_same, BitVec.getLsbD_and]
  · rw [State.getV_setV_same, BitVec.getLsbD_xor]

end Sys2Proof.Machine
end

section
/-! PROOFS. Loads of the index register (spec/43_index_and_memory.md R105, R107). -/

namespace Sys2Proof.Machine

/-- Five times a byte is at most 0x4FB, so the glyph address drops nothing in I's 16 bits (R107). -/
theorem glyphAddress_toNat (b : Byte) : (glyphAddress b).toNat = b.toNat * 5 := by
  have hb := b.isLt
  rw [glyphAddress, BitVec.toNat_ofNat, Nat.mod_eq_of_lt (by omega)]

/-- Settles O26: each load is one `setI`, of an address that fits in I's 16 bits. -/
theorem indexLoadsSetI : Obligations.IndexLoadsSetI := by
  intro nnn x s
  refine ⟨fun key => ⟨?_, decodeWord_groupF key x _⟩, ⟨_, rfl, ?_, changesOnly_setI s _⟩,
    ⟨_, rfl, ?_, changesOnly_setI s _⟩⟩
  · exact decodeOfEncodeIsTheInstruction key (.ldI nnn) rfl
  · rw [State.setI_i, zext16_toNat]
  · rw [State.setI_i, glyphAddress_toNat]

end Sys2Proof.Machine
end

section
/-! PROOFS. The framebuffer (spec/44_display.md R112-R118): the pixel of one sprite bit, the state that a
completed draw leaves, and the obligations assembled from them. -/

namespace Sys2Proof.Machine

/-! ### The pixels of a sprite (R113, R115) -/

/-- The mask of column `c` has bit `7 - c` alone (R113). -/
theorem shiftRight_eq_twoPow {c : Nat} (hc : c < 8) : 0x80#8 >>> c = BitVec.twoPow 8 (7 - c) := by
  revert c; decide

/-- A pixel is bit `7 - c` of the sprite byte, at its own weight under `masked` and as 1 under `normalized`
(R113, D5). -/
theorem pixelValue_eq (form : PixelXorForm) (b : Byte) {c : Nat} (hc : c < 8) :
    pixelValue form b c = if b.getLsbD (7 - c) = true then
      (if form = .masked then BitVec.twoPow 8 (7 - c) else 1#8) else 0#8 := by
  cases form with
  | masked => rw [pixelValue, shiftRight_eq_twoPow hc, BitVec.and_twoPow]; rfl
  | normalized =>
    have hbit : (b >>> (7 - c)) &&& BitVec.twoPow 8 0 =
        if (b >>> (7 - c)).getLsbD 0 = true then BitVec.twoPow 8 0 else 0#8 := BitVec.and_twoPow _ _
    rw [BitVec.getLsbD_ushiftRight, Nat.add_zero] at hbit
    exact hbit

/-- A draw adds to a cell of the screen the pixel of the sprite bit over it (R112, R113, R115). -/
theorem spritePixel_cellIndex (s : State) (x0 y0 n : Nat) {xp yp : Nat} (hx : xp < fbWidth)
    (hy : yp < fbHeight) :
    spritePixel s x0 y0 0 n (cellIndex xp yp) =
      if x0 ≤ xp ∧ xp < x0 + 8 ∧ y0 ≤ yp ∧ yp < y0 + n ∧
          (Memory.read s.mem (s.indexed (yp - y0))).getLsbD (7 - (xp - x0)) = true then
        if s.cfg.pixelXor = .masked then BitVec.twoPow 8 (7 - (xp - x0)) else 1#8
      else 0#8 := by
  rw [spritePixel, cellIndex_mod hx, cellIndex_div hx]
  by_cases hon : x0 ≤ xp ∧ xp < x0 + 8 ∧ y0 ≤ yp ∧ yp < y0 + n
  · obtain ⟨h1, h2, h3, h4⟩ := hon
    rw [pixelValue_eq _ _ (by omega)]
    simp [h1, h2, h3, h4, hy]
  · rw [if_neg (by omega), if_neg (by tauto)]

/-- Only a cell of the screen under the sprite gets a pixel (R115, R117). -/
theorem onSprite_of_spritePixel_ne_zero {s : State} {x0 y0 lo n j : Nat}
    (h : spritePixel s x0 y0 lo n j ≠ 0#8) :
    x0 ≤ j % fbWidth ∧ j % fbWidth < x0 + 8 ∧ y0 + lo ≤ j / fbWidth ∧ j / fbWidth < y0 + lo + n ∧
      j / fbWidth < fbHeight := by
  by_contra hoff
  exact h (if_neg hoff)

/-- The collision flag is 1 for a cell the pixel leaves empty (R116). -/
theorem collisionFlag_eq (cell : Byte) : collisionFlag cell = if cell = 0#8 then 1#8 else 0#8 := by
  simp [collisionFlag, flagByte]

/-! ### A draw that completes (R115-R118) -/

section Draw

variable {x y : Reg} {n : Nibble} {s : State}

/-- A draw has a pixel on the screen: the sprite has a row and starts on the screen (R117). -/
def State.touchesScreen (s : State) (x y : Reg) (n : Nibble) : Prop :=
  0 < n.toNat ∧ (s.getV x).toNat < fbWidth ∧ (s.getV y).toNat < fbHeight

/-- The last cell a draw touches, the bottom right one of the clipped sprite (R116, R117). -/
def State.lastTouchedCell (s : State) (x y : Reg) (n : Nibble) : Nat :=
  cellIndex (min ((s.getV x).toNat + 8) fbWidth - 1) (min ((s.getV y).toNat + n.toNat) fbHeight - 1)

/-- What a draw adds to cell `j`. -/
def State.addedPixel (s : State) (x y : Reg) (n : Nibble) (j : Nat) : Byte :=
  spritePixel s (s.getV x).toNat (s.getV y).toNat 0 n.toNat j

/-- The pieces a completed draw changes: DIRTY, VF when a pixel is touched, and the cells that get one. -/
def State.drawChanges (s : State) (x y : Reg) (n : Nibble) (p : Piece) : Prop :=
  p = .dirty ∨ (p = .v regVF ∧ s.touchesScreen x y n) ∨ ∃ k, p = .fb k ∧ s.addedPixel x y n k ≠ 0#8

theorem screenCell_of_addedPixel_ne_zero {k : Nat} (h : s.addedPixel x y n k ≠ 0#8) :
    k < fbWidth * fbHeight := by
  obtain ⟨-, -, -, -, hrow⟩ := onSprite_of_spritePixel_ne_zero h
  exact Nat.mul_comm fbHeight fbWidth ▸ (Nat.div_lt_iff_lt_mul (by decide)).1 hrow

theorem touchesScreen_of_addedPixel_ne_zero {k : Nat} (h : s.addedPixel x y n k ≠ 0#8) :
    s.touchesScreen x y n := by
  obtain ⟨hleft, -, htop, hbottom, hrow⟩ := onSprite_of_spritePixel_ne_zero h
  have hcol : k % fbWidth < fbWidth := Nat.mod_lt _ (by decide)
  exact ⟨by omega, by omega, by omega⟩

/-- A draw that is not refused and reads its rows in memory completes: each cell is XORed with the pixel
over it, VF is that of the last cell touched, and the rest of the state but DIRTY is kept (R115-R118). -/
theorem exec_drw_completes (hw : s.fb.fbWf = true)
    (hflag : ¬ (s.cfg.flagDest = .openDraw ∧ (x = 15 ∨ y = 15)))
    (hread : ∀ r, r < n.toNat → (r = 0 ∨ (s.getV y).toNat + (r - 1) < 32) → s.indexed r < 4096) :
    ∃ t, exec (.drw x y n) s = .next t ∧ t.dirty = true ∧
      (∀ j, t.getFb j = s.getFb j ^^^ s.addedPixel x y n j) ∧
      (s.touchesScreen x y n → t.getV regVF = collisionFlag (t.getFb (s.lastTouchedCell x y n))) ∧
      ChangesOnly (s.drawChanges x y n) s t := by
  obtain ⟨t, hrows, ht, -, hcells, hregs⟩ := State.drawRows_ok (s := s.setDirty true) hw
    (x0 := (s.getV x).toNat) (y0 := (s.getV y).toNat) (left := n.toNat) (r := 0)
    fun k _ hk hread' => hread k (by omega) hread'
  refine ⟨t, ?_, by rw [ht]; rfl, hcells, fun htouch => ?_, fun p hp => ?_⟩
  · exact (if_neg hflag).trans (finish_eq_next.2 hrows)
  · obtain ⟨hn, hx, hy⟩ := htouch
    exact (hregs regVF).trans (if_pos ⟨rfl, hn, hy, hx⟩)
  · cases p with
    | dirty => exact absurd (.inl rfl) hp
    | v q =>
      refine (hregs q).trans (if_neg ?_)
      rintro ⟨rfl, hn, hy, hx⟩
      exact hp (.inr (.inl ⟨rfl, hn, hx, hy⟩))
    | fb k =>
      have hzero : s.addedPixel x y n k = 0#8 := by
        by_contra hne
        exact hp (.inr (.inr ⟨k, rfl, hne⟩))
      exact ((hcells k).trans (congrArg (s.getFb k ^^^ ·) hzero)).trans BitVec.xor_zero
    | _ => rw [ht]; rfl

end Draw

/-! ### The obligations -/

/-- Settles O33: the cells of a completed draw, with the sprite pixel written out at each cell. -/
theorem drawXorsEachCellOnce : Obligations.DrawXorsEachCellOnce := by
  intro x y n s hw hflag hread
  obtain ⟨t, hexec, hdirty, hcells, -, hframe⟩ := exec_drw_completes hw hflag hread
  refine ⟨t, hexec, hdirty, fun xp yp hx hy => ?_, hframe.mono ?_⟩
  · calc t.getFb (cellIndex xp yp)
        = s.getFb (cellIndex xp yp) ^^^ s.addedPixel x y n (cellIndex xp yp) := hcells _
      _ = _ := congrArg _ (spritePixel_cellIndex s _ _ _ hx hy)
  · rintro p (hp | ⟨hp, -⟩ | ⟨k, hp, hk⟩)
    · exact .inl hp
    · exact .inr (.inl hp)
    · exact .inr (.inr ⟨k, screenCell_of_addedPixel_ne_zero hk, hp⟩)

/-- Settles O34: VF is written from the last cell touched, or is outside the frame of the draw. -/
theorem drawLeavesTheLastPixelsFlag : Obligations.DrawLeavesTheLastPixelsFlag := by
  intro x y n s hw hflag hread
  obtain ⟨t, hexec, -, -, hvf, hframe⟩ := exec_drw_completes hw hflag hread
  refine ⟨t, hexec, fun htouch => ?_, fun hmiss => hframe (.v 15) ?_⟩
  · exact (hvf htouch).trans (collisionFlag_eq _)
  · rintro (hp | ⟨-, htouch⟩ | ⟨k, hp, -⟩)
    · cases hp
    · exact hmiss htouch
    · cases hp

/-- Settles O35: a draw that touches no pixel writes neither VF nor a cell. -/
theorem drawOffTheScreenSetsDirtyAlone : Obligations.DrawOffTheScreenSetsDirtyAlone := by
  intro x y n s hw hflag hread hoff
  obtain ⟨t, hexec, hdirty, -, -, hframe⟩ := exec_drw_completes hw hflag hread
  have hmiss : ¬ s.touchesScreen x y n := by
    rintro ⟨hn, hx, hy⟩
    rcases hoff with rfl | hoff | hoff
    · exact absurd hn (by decide)
    · exact absurd hx (Nat.not_lt.2 hoff)
    · exact absurd hy (Nat.not_lt.2 hoff)
  refine ⟨t, hexec, hdirty, hframe.mono ?_⟩
  rintro p (hp | ⟨-, htouch⟩ | ⟨k, -, hk⟩)
  · exact hp
  · exact absurd htouch hmiss
  · exact absurd (touchesScreen_of_addedPixel_ne_zero hk) hmiss

/-- Settles O32: CLS is one `clearFb` and one `setDirty`. -/
theorem clearTurnsEveryCellOff : Obligations.ClearTurnsEveryCellOff := by
  intro s
  refine ⟨fun key => decodeOfEncodeIsTheInstruction key .cls rfl, _, rfl, State.getFb_clearFb s, rfl, ?_⟩
  exact ((changesOnly_clearFb s).mono fun _ hp => .inr hp).trans
    ((changesOnly_setDirty _ true).mono fun _ hp => .inl hp)

end Sys2Proof.Machine
end

section
/-! PROOFS. The timers (spec/45_keypad_and_timers.md R121-R123): the tick of each instruction that reads or
writes one, and the obligations assembled from them. -/

namespace Sys2Proof.Machine

/-! ### The ticks that read or write a timer -/

/-- What `Fx07` reads is left by this tick's own decrement (R71, R121). -/
theorem step_ldVxDt {x : Reg} {s : State} (hs : s.ticksNext) (hi : s.nextInstr = .ldVxDt x) :
    ∃ t, step s = .next t ∧ (t.getV x).toNat = s.dt.toNat - 1 := by
  rw [step_eq hs, hi]
  refine ⟨_, rfl, ?_⟩
  rw [State.getV_setV_same]
  exact countDown_toNat s.dt

/-- What `Fx15` writes is not decremented by the same tick (R71, R122). -/
theorem step_ldDtVx {x : Reg} {s : State} (hs : s.ticksNext) (hi : s.nextInstr = .ldDtVx x) :
    ∃ t, step s = .next t ∧ t.dt = s.getV x := by
  rw [step_eq hs, hi]
  exact ⟨_, rfl, rfl⟩

/-- What `Fx18` writes is not decremented by the same tick (R71, R123). -/
theorem step_ldStVx {x : Reg} {s : State} (hs : s.ticksNext) (hi : s.nextInstr = .ldStVx x) :
    ∃ t, step s = .next t ∧ t.st = s.getV x := by
  rw [step_eq hs, hi]
  exact ⟨_, rfl, rfl⟩

/-! ### The obligations -/

/-- Settles O38: each handler is one `setV`, `setDt` or `setSt`, and it runs after the timer step of its
tick. -/
theorem timersAreReadAndWritten : Obligations.TimersAreReadAndWritten := by
  intro x s
  refine ⟨fun key => ⟨?_, ?_, ?_⟩, ?_, ?_, ?_, step_ldVxDt, step_ldDtVx, step_ldStVx⟩
  · exact decodeWord_groupF key x _
  · exact decodeWord_groupF key x _
  · exact decodeWord_groupF key x _
  · exact ⟨_, rfl, s.getV_setV_same x _, changesOnly_setV s x _⟩
  · exact ⟨_, rfl, rfl, changesOnly_setDt s _⟩
  · exact ⟨_, rfl, rfl, changesOnly_setSt s _⟩

/-- Settles O39: the first tick leaves the written value in DT, and the second reads it after its
decrement. -/
theorem delayTimerReadsOneLessOnTheNextTick : Obligations.DelayTimerReadsOneLessOnTheNextTick := by
  intro x y s t hs hi hstep ht hi'
  obtain ⟨_, hstep', hdt⟩ := step_ldDtVx hs hi
  cases hstep.symm.trans hstep'
  obtain ⟨u, hu, hread⟩ := step_ldVxDt ht hi'
  exact ⟨u, hu, hread.trans (by rw [hdt])⟩

end Sys2Proof.Machine
end

section
/-! PROOFS. The blocking key read (spec/45_keypad_and_timers.md R124-R134): the transition table of KBLOCK,
the two states an `Fx0A` can leave, the steps of a wait, and the obligations assembled from them. -/

namespace Sys2Proof.Machine

/-! ### The transition table of KBLOCK and `Fx0A` (R125-R128, R131) -/

/-- The state of KBLOCK after an `Fx0A`; `held` says that the key LASTKEY is down. -/
def KeyBlock.afterRead (held : Bool) : KeyBlock → KeyBlock
  | .idle              => .locked
  | .locked            => .locked
  | .waitingForRelease => if held then .waitingForRelease else .unlocked
  | .unlocked          => .idle

/-- `Fx0A` keeps KBLOCK or makes a transition of the table (R131). -/
theorem KeyBlock.afterRead_cases (held : Bool) (k : KeyBlock) :
    k.afterRead held = k ∨ (k = .idle ∧ k.afterRead held = .locked) ∨
      (k = .waitingForRelease ∧ held = false ∧ k.afterRead held = .unlocked) ∨
      (k = .unlocked ∧ k.afterRead held = .idle) := by
  cases k <;> cases held <;> decide

/-- The KBLOCK an `Fx0A` executed in `s` leaves. -/
def State.kblockAfterRead (s : State) : KeyBlock := s.kblock.afterRead (s.getKey s.lastKey)

theorem State.setKblock_self {s : State} {k : KeyBlock} (h : s.kblock = k) : s.setKblock k = s := by
  subst h; rfl

/-- Before the release is observed, `Fx0A` rewinds PC (R125-R127). -/
theorem exec_ldVxK_waits {x : Reg} {s : State} (h : s.kblock ≠ .unlocked) :
    exec (.ldVxK x) s = .next (s.rewind.setKblock s.kblockAfterRead) := by
  have hkeep (k : KeyBlock) (hk : s.kblock = k) : s.rewind.setKblock k = s.rewind :=
    State.setKblock_self hk
  simp only [exec, execLdVxK, State.kblockAfterRead]
  cases hk : s.kblock with
  | idle => rfl
  | locked => rw [KeyBlock.afterRead, hkeep .locked hk]
  | waitingForRelease =>
    cases s.getKey s.lastKey with
    | true => exact congrArg Host.Outcome.next (hkeep .waitingForRelease hk).symm
    | false => rfl
  | unlocked => exact absurd hk h

/-- Once it is observed, `Fx0A` commits the recorded key and does not rewind (R128). -/
theorem exec_ldVxK_commits {x : Reg} {s : State} (h : s.kblock = .unlocked) :
    exec (.ldVxK x) s = .next ((s.setV x (BitVec.ofNat 8 s.lastKey.val)).setKblock .idle) := by
  simp only [exec, execLdVxK, h]

/-- Waiting or committing, `Fx0A` moves KBLOCK by its table (R131). -/
theorem kblock_of_exec_ldVxK {x : Reg} {s t : State} (h : exec (.ldVxK x) s = .next t) :
    t.kblock = s.kblockAfterRead := by
  by_cases hk : s.kblock = .unlocked
  · rw [exec_ldVxK_commits hk] at h
    cases h
    rw [State.kblockAfterRead, hk]
    rfl
  · rw [exec_ldVxK_waits hk] at h
    cases h
    rfl

/-- A key number fits in a register (R128). -/
theorem toNat_keyCode (c : KeyCode) : (BitVec.ofNat 8 c.val).toNat = c.val := by
  have hc := c.isLt
  rw [BitVec.toNat_ofNat, Nat.mod_eq_of_lt (by omega)]

/-- Only `Fx0A` writes KBLOCK (R30). -/
theorem not_mayDisturb_kblock {i : Instr} (h : ∀ x, i ≠ .ldVxK x) (s : State) :
    ¬ mayDisturb i s .kblock := by
  cases i with
  | ldVxK x => exact absurd rfl (h x)
  | _ => simp [mayDisturb, mayWrite, Piece.isCell]

/-! ### One step of the state machine -/

/-- Settles O41: of the instructions only `Fx0A` lists KBLOCK, and of the host's transactions only a
reset and a key-down while Locked write it. -/
theorem keyBlockMovesOnlyByItsTable : Obligations.KeyBlockMovesOnlyByItsTable := by
  intro s t h
  obtain ⟨op, ops, hdue, hop⟩ | ⟨hdue, -, hexec⟩ := step_next h
  · obtain ⟨bytes, -, -, rfl⟩ | ⟨rfl, rfl⟩ | ⟨c, p, rfl, rfl⟩ | ⟨-, rfl⟩ := performHostOp_next hop
    · exact .inl rfl
    · exact .inr (.inr (.inr ⟨⟨ops, hdue⟩, rfl⟩))
    · by_cases hpress : p = true ∧ s.kblock = .locked
      · obtain ⟨rfl, hk⟩ := hpress
        refine .inr (.inr (.inl ⟨c, ops, hdue, hk, ?_, ?_⟩))
        · simp [State.noteKey_kblock, hk]
        · simp [State.noteKey_lastKey, hk]
      · exact .inl ((State.noteKey_kblock _ c p).trans (if_neg hpress))
    · exact .inl rfl
  · by_cases hread : ∃ x, s.nextInstr = .ldVxK x
    · obtain ⟨x, hx⟩ := hread
      rw [hx] at hexec
      have hk : t.kblock = s.kblockAfterRead :=
        kblock_of_exec_ldVxK (s := s.stepTimers.advance s.nextWord) hexec
      rw [hk]
      obtain hsame | hmove := KeyBlock.afterRead_cases (s.getKey s.lastKey) s.kblock
      · exact .inl hsame
      · exact .inr (.inl ⟨hdue, ⟨x, hx⟩, hmove⟩)
    · exact .inl (exec_frame hexec .kblock (not_mayDisturb_kblock (not_exists.1 hread) _))

/-- Settles O40, by the two states an `Fx0A` can leave. -/
theorem keyWaitStepsItsStateMachine : Obligations.KeyWaitStepsItsStateMachine := by
  intro x s
  refine ⟨fun key => decodeWord_groupF key x _, ?_⟩
  have hblock (u : State) (k : KeyBlock) :
      ChangesOnly (fun p => p = .pc ∨ p = .kblock ∨ p = .v x) u (u.setKblock k) :=
    (changesOnly_setKblock u k).mono fun _ hp => .inr (.inl hp)
  by_cases hk : s.kblock = .unlocked
  · refine ⟨_, exec_ldVxK_commits hk, absurd hk, by simp [hk], by simp [hk], by simp [hk], by simp [hk],
      fun _ => ⟨rfl, ?_, rfl⟩, ?_⟩
    · simpa using toNat_keyCode s.lastKey
    · exact ((changesOnly_setV s x _).mono fun _ hp => .inr (.inr hp)).trans (hblock _ _)
  · refine ⟨_, exec_ldVxK_waits hk, fun _ => ⟨rfl, fun _ => rfl⟩, ?_, ?_, ?_, ?_, fun h => absurd h hk, ?_⟩
    · exact fun h => congrArg (KeyBlock.afterRead _) h
    · exact fun h => congrArg (KeyBlock.afterRead _) h
    · exact fun h hup => congrArg₂ KeyBlock.afterRead hup h
    · exact fun h hheld => congrArg₂ KeyBlock.afterRead hheld h
    · exact ((changesOnly_setPc s _).mono fun _ hp => .inl hp).trans (hblock _ _)

/-! ### The steps of a wait (R126-R129) -/

/-- PC stands at a word of memory that is an `Fx0A` (R124). -/
structure State.AtKeyRead (s : State) (x : Reg) : Prop where
  fetched : s.pc.toNat + 1 < memSize
  instr   : s.nextInstr = .ldVxK x

theorem State.AtKeyRead.congr {s t : State} {x : Reg} (hs : s.AtKeyRead x) (hpc : t.pc = s.pc)
    (hmem : t.mem = s.mem) (hcfg : t.cfg = s.cfg) : t.AtKeyRead x := by
  obtain ⟨hfetch, hinstr⟩ := hs
  refine ⟨hpc ▸ hfetch, ?_⟩
  rwa [State.nextInstr, State.nextWord, hpc, hmem, hcfg]

/-- The state after a tick of `Fx0A` that waits on. -/
def State.afterWait (s : State) : State :=
  (s.stepTimers.advance s.nextWord).rewind.setKblock s.kblockAfterRead

/-- The rewind undoes the advance of the tick (R74, R124, D30). -/
theorem State.afterWait_pc (s : State) : s.afterWait.pc = s.pc := by
  change s.pc + 2#16 - 2#16 = s.pc
  bv_omega

theorem State.AtKeyRead.afterWait {s : State} {x : Reg} (hs : s.AtKeyRead x) :
    s.afterWait.AtKeyRead x :=
  hs.congr s.afterWait_pc rfl rfl

theorem State.AtKeyRead.step_waits {s : State} {x : Reg} (hs : s.AtKeyRead x) (hdue : s.due = none)
    (hk : s.kblock ≠ .unlocked) : step s = .next s.afterWait := by
  rw [step_eq ⟨hdue, hs.fetched⟩, hs.instr]
  exact exec_ldVxK_waits (s := s.stepTimers.advance s.nextWord) hk

/-- The state after a tick of `Fx0A` that commits the recorded key. -/
def State.afterCommit (s : State) (x : Reg) : State :=
  ((s.stepTimers.advance s.nextWord).setV x (BitVec.ofNat 8 s.lastKey.val)).setKblock .idle

theorem State.AtKeyRead.step_commits {s : State} {x : Reg} (hs : s.AtKeyRead x) (hdue : s.due = none)
    (hk : s.kblock = .unlocked) : step s = .next (s.afterCommit x) := by
  rw [step_eq ⟨hdue, hs.fetched⟩, hs.instr]
  exact exec_ldVxK_commits (s := s.stepTimers.advance s.nextWord) hk

/-- The state after a key event taken out of the script, which leaves `ops` (R140). -/
def State.afterKeyEvent (s : State) (c : KeyCode) (p : Bool) (ops : List (Nat × HostOp)) : State :=
  ((s.setScript ops).setKey c p).noteKey c p

@[simp] theorem State.afterKeyEvent_pc (s : State) (c : KeyCode) (p : Bool) (ops : List (Nat × HostOp)) :
    (s.afterKeyEvent c p ops).pc = s.pc := State.noteKey_pc _ c p

@[simp] theorem State.afterKeyEvent_script (s : State) (c : KeyCode) (p : Bool)
    (ops : List (Nat × HostOp)) : (s.afterKeyEvent c p ops).script = ops := State.noteKey_script _ c p

@[simp] theorem State.afterKeyEvent_ticks (s : State) (c : KeyCode) (p : Bool)
    (ops : List (Nat × HostOp)) : (s.afterKeyEvent c p ops).ticks = s.ticks := State.noteKey_ticks _ c p

theorem State.AtKeyRead.afterKeyEvent {s : State} {x : Reg} (hs : s.AtKeyRead x) (c : KeyCode) (p : Bool)
    (ops : List (Nat × HostOp)) : (s.afterKeyEvent c p ops).AtKeyRead x :=
  hs.congr (s.afterKeyEvent_pc c p ops) (State.noteKey_mem _ c p) (State.noteKey_cfg _ c p)

theorem performHostOp_keySet (c : KeyCode) (p : Bool) (s : State) :
    performHostOp (.keySet c.val p) s = .next ((s.setKey c p).noteKey c p) :=
  dif_pos c.isLt

/-- A key event at the head of the script that is due is the next step (log entry 8). -/
theorem step_keyEvent {s : State} {n : Nat} {c : KeyCode} {p : Bool} {ops : List (Nat × HostOp)}
    (hscript : s.script = (n, .keySet c.val p) :: ops) (hn : n ≤ s.ticks) :
    step s = .next (s.afterKeyEvent c p ops) := by
  have hdue : s.due = some (.keySet c.val p, ops) := by
    rw [State.due, hscript, takeDue, if_pos hn]
  rw [step, hdue]
  exact performHostOp_keySet c p _

theorem due_of_script_nil {s : State} (h : s.script = []) : s.due = none :=
  State.due_none_iff.2 (by simp [h])

theorem run_succ_of_step (M : Host.Core) {s t : M.State} (h : M.step s = .next t) (k : Nat) :
    M.run (k + 1) s = M.run k t := by
  rw [Host.Core.run, h]

/-! ### Waits over several steps -/

/-- Settles O42, by induction on the number of steps: each is a tick that leaves the wait as it was. -/
theorem unansweredWaitNeverAdvances : Obligations.UnansweredWaitNeverAdvances := by
  intro n x
  induction n with
  | zero => exact fun s _ _ hk _ => ⟨s, rfl, rfl, hk, rfl, fun _ => rfl⟩
  | succ n ih =>
    intro s hscript hpc hk hinstr
    have hs : s.AtKeyRead x := ⟨hpc, hinstr⟩
    have hstep : step s = .next s.afterWait := hs.step_waits (due_of_script_nil hscript) (by simp [hk])
    have hlocked : s.afterWait.kblock = .locked := congrArg (KeyBlock.afterRead _) hk
    obtain ⟨hpc', hinstr'⟩ := hs.afterWait
    obtain ⟨t, hrun, htpc, htk, hticks, hregs⟩ := ih s.afterWait hscript hpc' hlocked hinstr'
    refine ⟨t, (run_succ_of_step core hstep n).trans hrun, htpc.trans s.afterWait_pc, htk, ?_, hregs⟩
    calc t.ticks
        = s.ticks + 1 + n := hticks
      _ = s.ticks + (n + 1) := by omega

/-- The state after a press and a release of key `c`, the script then being empty (R129, R140). -/
def State.afterKeyStroke (s : State) (c : KeyCode) : State :=
  (s.afterKeyEvent c true [(s.ticks, .keySet c.val false)]).afterKeyEvent c false []

/-- A key stroke while Locked is recorded, and leaves the key up (R129). -/
theorem State.afterKeyStroke_of_locked {s : State} (c : KeyCode) (hk : s.kblock = .locked) :
    (s.afterKeyStroke c).kblock = .waitingForRelease ∧ (s.afterKeyStroke c).lastKey = c ∧
      (s.afterKeyStroke c).getKey c = false := by
  refine ⟨?_, ?_, ?_⟩
  · simp [State.afterKeyStroke, State.afterKeyEvent, State.noteKey_kblock, hk]
  · simp [State.afterKeyStroke, State.afterKeyEvent, State.noteKey_lastKey, hk]
  · simp [State.afterKeyStroke, State.afterKeyEvent, State.getKey]

/-- A press and a release that are due are the next two steps (log entry 8). -/
theorem run_keyStroke {s : State} {c : KeyCode}
    (hscript : s.script = [(s.ticks, .keySet c.val true), (s.ticks, .keySet c.val false)]) (k : Nat) :
    Host.Core.run core (k + 2) s = Host.Core.run core k (s.afterKeyStroke c) :=
  calc Host.Core.run core (k + 2) s
      = Host.Core.run core (k + 1) (s.afterKeyEvent c true [(s.ticks, .keySet c.val false)]) :=
        run_succ_of_step core (step_keyEvent hscript (le_refl _)) (k + 1)
    _ = Host.Core.run core k (s.afterKeyStroke c) :=
        run_succ_of_step core (step_keyEvent (State.afterKeyEvent_script ..) (by simp)) k

/-- Settles O43: after the key stroke one tick observes the release and the next commits the key. -/
theorem pressAndReleaseResolveTheWait : Obligations.PressAndReleaseResolveTheWait := by
  intro x c s hpc hk hinstr hscript
  have hs : s.AtKeyRead x := ⟨hpc, hinstr⟩
  have hstroke : (s.afterKeyStroke c).AtKeyRead x := (hs.afterKeyEvent c true _).afterKeyEvent c false []
  have hspc : (s.afterKeyStroke c).pc = s.pc := by simp [State.afterKeyStroke]
  have hticks : (s.afterKeyStroke c).ticks = s.ticks := by simp [State.afterKeyStroke]
  have hnil : (s.afterKeyStroke c).script = [] := State.afterKeyEvent_script ..
  obtain ⟨hwaiting, hlast, hup⟩ := State.afterKeyStroke_of_locked c hk
  have hrun := run_keyStroke hscript 2
  generalize s.afterKeyStroke c = u at *
  have hwait : step u = .next u.afterWait :=
    hstroke.step_waits (due_of_script_nil hnil) (by simp [hwaiting])
  have hunlocked : u.afterWait.kblock = .unlocked :=
    congrArg₂ KeyBlock.afterRead ((congrArg u.getKey hlast).trans hup) hwaiting
  have hcommit : step u.afterWait = .next (u.afterWait.afterCommit x) :=
    hstroke.afterWait.step_commits (due_of_script_nil (s := u.afterWait) hnil) hunlocked
  refine ⟨u.afterWait.afterCommit x, ?_, ?_, rfl, ?_, ?_⟩
  · rw [hrun, run_succ_of_step core hwait, run_succ_of_step core hcommit]
    rfl
  · have hv : (u.afterWait.afterCommit x).getV x = BitVec.ofNat 8 u.lastKey.val := by
      simp [State.afterCommit, State.afterWait]
    rw [hv, hlast, toNat_keyCode]
  · rw [← hspc, ← u.afterWait_pc]
    rfl
  · rw [← hticks]
    rfl

end Sys2Proof.Machine
end

section
/-! PROOFS. The host's queries and the delivery of its pending transactions (spec/46_host_operations.md
R135, R141-R145; log entry 8). -/

namespace Sys2Proof.Machine

/-! ### The queries, one equation each (R141, R142, R144) -/

/-- The framebuffer query lists every cell of the screen (R142). -/
theorem length_framebuffer (s : State) : (framebuffer s).1.length = fbWidth * fbHeight := by
  simp [framebuffer]

/-- The framebuffer query is row-major and gives the raw cells (R142, D35). -/
theorem getElem?_framebuffer (s : State) {k : Nat} (hk : k < fbWidth * fbHeight) :
    (framebuffer s).1[k]? = some (s.getFb k) := by
  simp [framebuffer, hk]

theorem soundOn_iff (s : State) : soundOn s = true ↔ s.st ≠ 0#8 := by
  rw [soundOn, decide_eq_true_iff, Nat.pos_iff_ne_zero, ne_eq, ne_eq, BitVec.toNat_eq]
  rfl

theorem isKeyPressed_keyCode (s : State) (c : KeyCode) : isKeyPressed s c.val = .ok (s.getKey c) :=
  dif_pos c.isLt

/-- Settles O49: clear_dirty is one named update, and each query has its equation. -/
theorem hostQueriesReportTheState : Obligations.HostQueriesReportTheState := fun s =>
  ⟨⟨s.setDirty false, rfl, rfl, changesOnly_setDirty s false⟩, length_framebuffer s,
    fun _ hk => getElem?_framebuffer s hk, rfl, soundOn_iff s, rfl, isKeyPressed_keyCode s⟩

/-! ### The step, by what is due (R135, R172) -/

theorem step_of_due {s : State} {op : HostOp} {ops : List (Nat × HostOp)} (h : s.due = some (op, ops)) :
    step s = performHostOp op (s.setScript ops) := by
  rw [step, h]

theorem step_of_due_none {s : State} (h : s.due = none) : step s = tick s := by
  rw [step, h]

/-- The due transaction is the first of the script whose tick count is reached (R172; log entry 8). -/
theorem due_of_script_append {s : State} {before after : List (Nat × HostOp)} {n : Nat} {op : HostOp}
    (hscript : s.script = before ++ (n, op) :: after) (hbefore : ∀ p ∈ before, s.ticks < p.1)
    (hn : n ≤ s.ticks) : s.due = some (op, before ++ after) :=
  takeDue_eq_some.2 ⟨before, n, after, hscript, hbefore, hn, rfl⟩

/-- Settles O50: what is due decides the step. -/
theorem dueTransactionIsOneStep : Obligations.DueTransactionIsOneStep :=
  ⟨fun _ _ _ _ _ hscript hbefore hn => step_of_due (due_of_script_append hscript hbefore hn),
    fun _ hnone => step_of_due_none (State.due_none_iff.2 hnone)⟩

end Sys2Proof.Machine
end

section
/-! PROOFS. The fields of a word as numbers: the group and the byte `kk` are the word's high digit and its
low byte (spec/30_encoding.md R13). -/

namespace Sys2Proof

theorem opG_toNat (w : Word) : (opG w).toNat = w.toNat / 0x1000 := by
  have hw := w.isLt
  rw [opG, BitVec.extractLsb'_toNat, Nat.shiftRight_eq_div_pow, Nat.mod_eq_of_lt (by omega)]

theorem opKk_toNat (w : Word) : (opKk w).toNat = w.toNat % 256 := by
  rw [opKk, BitVec.extractLsb'_toNat, Nat.shiftRight_zero]

theorem opG_eq_of_toNat {w : Word} {g : Nibble} (h : w.toNat / 0x1000 = g.toNat) : opG w = g :=
  BitVec.eq_of_toNat_eq ((opG_toNat w).trans h)

/-- A list of keys as bytes and the list of their numbers are missed by the same words. -/
theorem opKk_not_mem {w : Word} {keys : List Byte} (h : w.toNat % 256 ∉ keys.map BitVec.toNat) :
    opKk w ∉ keys := fun hmem => h (opKk_toNat w ▸ List.mem_map_of_mem hmem)

end Sys2Proof
end

section
/-! PROOFS. The Unknown-Opcode error (spec/60_exceptions.md R158, spec/40_tick_and_dispatch.md R78): its
handler, the words that lead to it, and their tick. -/

namespace Sys2Proof.Machine

/-! ### The handler (R149, R158) -/

theorem changesOnly_raiseUnknownOpcode (s : State) (w : Word) :
    ChangesOnly (· = .result) s (s.raiseUnknownOpcode w) :=
  changesOnly_setResult s _

theorem exec_unknownE (x : Reg) (kk : Byte) (s : State) :
    exec (.unknownE x kk) s = .next (s.raiseUnknownOpcode (packXK 0xE#4 x kk)) := rfl

theorem exec_unknownF (x : Reg) (kk : Byte) (s : State) :
    exec (.unknownF x kk) s = .next (s.raiseUnknownOpcode (packXK 0xF#4 x kk)) := rfl

/-- Settles O11: both handlers are one `raiseUnknownOpcode`, whatever `kk` is. -/
theorem unknownOpcodeReportsWordAndPc : Obligations.UnknownOpcodeReportsWordAndPc := fun x kk s =>
  ⟨⟨_, exec_unknownE x kk s, rfl, changesOnly_raiseUnknownOpcode s _⟩,
    ⟨_, exec_unknownF x kk s, rfl, changesOnly_raiseUnknownOpcode s _⟩⟩

/-! ### The unmapped words (R61, R62) -/

/-- A word of group 0xE or 0xF whose `kk` selects no instruction of its group. -/
def UnmappedWord (w : Word) : Prop :=
  (opG w = 0xE#4 ∧ opKk w ∉ groupEKeys) ∨ (opG w = 0xF#4 ∧ opKk w ∉ groupFKeys)

/-- The handler packs its word again, and that word is the one decoded. -/
theorem exec_decodeWord_unmapped (key : Group0Key) {w : Word} (h : UnmappedWord w) (s : State) :
    exec (decodeWord key w) s = .next (s.raiseUnknownOpcode w) := by
  rcases h with ⟨hg, hkk⟩ | ⟨hg, hkk⟩
  · rw [← packXK_of_group hg, decodeWord_groupE, decodeGroupE_unmapped _ hkk, exec_unknownE]
  · rw [← packXK_of_group hg, decodeWord_groupF, decodeGroupF_unmapped _ hkk, exec_unknownF]

/-- The unmapped words by their numbers, as the opcode map lists them. -/
theorem unmappedWord_of_toNat {w : Word}
    (h : (0xE000 ≤ w.toNat ∧ w.toNat < 0xF000 ∧ w.toNat % 256 ∉ groupEKeys.map BitVec.toNat) ∨
      (0xF000 ≤ w.toNat ∧ w.toNat % 256 ∉ groupFKeys.map BitVec.toNat)) : UnmappedWord w := by
  have hw := w.isLt
  rcases h with ⟨hlo, hhi, hkk⟩ | ⟨hlo, hkk⟩
  · have hg : w.toNat / 0x1000 = 0xE := by omega
    exact .inl ⟨opG_eq_of_toNat hg, opKk_not_mem hkk⟩
  · have hg : w.toNat / 0x1000 = 0xF := by omega
    exact .inr ⟨opG_eq_of_toNat hg, opKk_not_mem hkk⟩

/-! ### The tick of an unmapped word (R74, R78) -/

/-- The state an Unknown-Opcode tick leaves: the parts before the handler, and the error. -/
def State.afterUnknownOpcode (s : State) : State :=
  (s.stepTimers.advance s.nextWord).raiseUnknownOpcode s.nextWord

theorem step_unmapped {s : State} (hs : s.ticksNext) (h : UnmappedWord s.nextWord) :
    step s = .next s.afterUnknownOpcode :=
  (step_eq hs).trans (exec_decodeWord_unmapped _ h _)

/-- The handler's PC - 2 is the PC at fetch time (R74). -/
theorem State.afterUnknownOpcode_result (s : State) :
    s.afterUnknownOpcode.result = .unknownOpcode s.nextWord s.pc :=
  congrArg (TickResult.unknownOpcode s.nextWord) (BitVec.add_sub_cancel s.pc 2#16)

theorem changesOnly_afterUnknownOpcode (s : State) :
    ChangesOnly (fun p => p = .pc ∨ p = .dt ∨ p = .st ∨ p = .lastInsn ∨ p = .ticks ∨ p = .result) s
      s.afterUnknownOpcode :=
  (changesOnly_beforeHandler s s.nextWord).trans
    ((changesOnly_raiseUnknownOpcode _ _).mono fun p hp => by simp [hp])

/-- Settles O12: the words named are the unmapped ones, and their tick is the parts before the handler
followed by the error. -/
theorem unknownOpcodeTickLeavesTheDefinedState : Obligations.UnknownOpcodeTickLeavesTheDefinedState :=
  fun s hs hword =>
    ⟨s.afterUnknownOpcode, step_unmapped hs (unmappedWord_of_toNat hword), s.afterUnknownOpcode_result, rfl,
      State.advance_pc_eq_ofNat s.stepTimers s.nextWord, countDown_toNat s.dt, countDown_toNat s.st,
      changesOnly_afterUnknownOpcode s⟩

end Sys2Proof.Machine
end

section
/-! PROOFS. The fields `n` and `nnn` of a word as numbers, and group 0 under each secondary key
(spec/30_encoding.md R13, R59). -/

namespace Sys2Proof

theorem opN_toNat (w : Word) : (opN w).toNat = w.toNat % 16 := by
  rw [opN, BitVec.extractLsb'_toNat, Nat.shiftRight_zero]

theorem opNnn_toNat (w : Word) : (opNnn w).toNat = w.toNat % 0x1000 := by
  rw [opNnn, BitVec.extractLsb'_toNat, Nat.shiftRight_zero]

/-- Settles O4: each key is a low field of the word, compared here as a number. -/
theorem groupZeroSelectsByItsKey : Obligations.GroupZeroSelectsByItsKey := by
  intro w hw
  have hgroup (key : Group0Key) : decodeWord key w = decodeGroup0 key w :=
    decodeWord_group0 key (opG_of_lt hw)
  refine ⟨?_, ?_, ?_⟩
  · simp [hgroup, decodeGroup0, BitVec.toNat_eq, opKk_toNat]
  · simp [hgroup, decodeGroup0, BitVec.toNat_eq, opN_toNat]
  · simp [hgroup, decodeGroup0, BitVec.toNat_eq, opNnn_toNat, Nat.mod_eq_of_lt hw]

end Sys2Proof
end

section
/-! PROOFS. Call and return (spec/41_control_flow.md R81, R83, R89; spec/60_exceptions.md R150, R151). -/

namespace Sys2Proof.Machine

/-- SP is 15 exactly when there is no slot above it (R22, R83). -/
theorem StackPointer.push_eq_none_iff_toInt {p : StackPointer} : p.push = none ↔ p.toInt = 15 := by
  rw [StackPointer.push_eq_none]
  cases p with
  | empty => simp [StackPointer.toInt]
  | top j => simp [StackPointer.toInt, Fin.ext_iff]; omega

theorem StackPointer.toInt_eq_neg_one {p : StackPointer} : p.toInt = -1 ↔ p = .empty := by
  cases p with
  | empty => simp [StackPointer.toInt]
  | top j => simp [StackPointer.toInt]

theorem exec_call_of_full {nnn : Addr12} {s : State} (h : s.sp.push = none) :
    exec (.call nnn) s = .fault .stackOverflow := by
  simp only [exec, execCall, State.pushReturn_full h]

theorem exec_call_of_push {nnn : Addr12} {s : State} {j : Fin 16} (h : s.sp.push = some j) :
    exec (.call nnn) s = .next (((s.setSp (.top j)).setStack j s.pc).setPc (zext16 nnn)) := by
  simp only [exec, execCall, State.pushReturn_some h]

theorem exec_ret_of_empty {s : State} (h : s.sp = .empty) : exec .ret s = .fault .stackUnderflow :=
  congrArg finish (State.popReturn_empty h)

theorem exec_ret_of_top {s : State} {j : Fin 16} (h : s.sp = .top j) :
    exec .ret s = .next ((s.setPc (s.getStack j)).setSp (StackPointer.below j)) :=
  congrArg finish (State.popReturn_top h)

/-- Settles O14: a call is `pushReturn` of the advanced PC, then the jump. -/
theorem callPushesTheReturnAddress : Obligations.CallPushesTheReturnAddress := by
  intro nnn s
  refine ⟨fun key => decodeOfEncodeIsTheInstruction key (.call nnn) rfl, fun hfull => ?_, fun hroom => ?_⟩
  · exact exec_call_of_full (StackPointer.push_eq_none_iff_toInt.2 hfull)
  · obtain ⟨j, hj⟩ := Option.ne_none_iff_exists'.1 (mt StackPointer.push_eq_none_iff_toInt.1 hroom)
    refine ⟨_, j, exec_call_of_push hj, rfl, StackPointer.toInt_push hj, ?_, zext16_toNat nnn, ?_⟩
    · simp
    · exact (((changesOnly_setSp s _).mono fun _ hp => .inr (.inl hp)).trans
        ((changesOnly_setStack _ j _).mono fun _ hp => .inr (.inr hp))).trans
        ((changesOnly_setPc _ _).mono fun _ hp => .inl hp)

/-- Settles O15: a return is `popReturn`, which writes no slot. -/
theorem returnPopsTheReturnAddress : Obligations.ReturnPopsTheReturnAddress := by
  intro s
  refine ⟨fun key => decodeOfEncodeIsTheInstruction key .ret rfl, fun hempty => ?_, fun j hj => ?_⟩
  · exact exec_ret_of_empty (StackPointer.toInt_eq_neg_one.1 hempty)
  · refine ⟨_, exec_ret_of_top hj, rfl, hj ▸ StackPointer.toInt_below j, ?_⟩
    exact ((changesOnly_setPc s _).mono fun _ hp => .inl hp).trans
      ((changesOnly_setSp _ _).mono fun _ hp => .inr hp)

/-- A call that completes leaves SP at the slot above and the address after the call in it (R74, R83). -/
theorem step_call {nnn : Addr12} {s t : State} (hs : s.ticksNext) (hi : s.nextInstr = .call nnn)
    (h : step s = .next t) :
    ∃ j, s.sp.push = some j ∧ t.sp = .top j ∧ t.getStack j = BitVec.ofNat 16 (s.pc.toNat + 2) := by
  rw [step_eq hs, hi] at h
  cases hpush : s.sp.push with
  | none =>
    rw [exec_call_of_full (s := s.stepTimers.advance s.nextWord) hpush] at h
    cases h
  | some j =>
    rw [exec_call_of_push (s := s.stepTimers.advance s.nextWord) hpush] at h
    cases h
    refine ⟨j, rfl, rfl, ?_⟩
    rw [State.getStack_setPc, State.getStack_setStack, if_pos rfl, State.advance_pc_eq_ofNat]
    rfl

theorem step_ret {s : State} {j : Fin 16} (hs : s.ticksNext) (hi : s.nextInstr = .ret)
    (hsp : s.sp = .top j) :
    ∃ t, step s = .next t ∧ t.pc = s.getStack j ∧ t.sp = StackPointer.below j := by
  rw [step_eq hs, hi, exec_ret_of_top (s := s.stepTimers.advance s.nextWord) hsp]
  exact ⟨_, rfl, rfl, rfl⟩

/-- Settles O16: the return pops the slot the call wrote, and `below` undoes `push`. -/
theorem returnComesBackAfterTheCall : Obligations.ReturnComesBackAfterTheCall := by
  intro nnn s t u hs hcall hstep hu hret hsp hstack
  obtain ⟨j, hpush, htop, hslot⟩ := step_call hs hcall hstep
  obtain ⟨w, hw, hpc, hbelow⟩ := step_ret hu hret (hsp.trans htop)
  exact ⟨w, hw, hpc.trans ((hstack j).trans hslot), hbelow.trans (StackPointer.below_push hpush)⟩

end Sys2Proof.Machine
end

section
/-! PROOFS. The self-jump that ends a run (spec/70_reset_and_hazards.md R173). -/

namespace Sys2Proof.Machine

/-- The word `0x1000 | e` is of group 1 with the address `e` (R173). -/
theorem packA_of_selfJump {w : Word} {e : Addr12} (h : w.toNat = 0x1000 + e.toNat) :
    packA 0x1#4 e = w := by
  have he := e.isLt
  have hgroup : opG w = 0x1#4 := opG_eq_of_toNat (by rw [h]; change _ = 1; omega)
  have haddr : opNnn w = e := BitVec.eq_of_toNat_eq (by rw [opNnn_toNat, h]; omega)
  rw [← haddr, packA_of_group hgroup]

theorem nextInstr_of_selfJump {e : Addr12} {s : State} (h : s.nextWord.toNat = 0x1000 + e.toNat) :
    s.nextInstr = .jp e := by
  rw [State.nextInstr, ← packA_of_selfJump h]
  exact decodeOfEncodeIsTheInstruction _ (.jp e) rfl

/-- Settles O60: the tick is the parts before the handler and a jump back to the PC it fetched at. -/
theorem selfJumpIsAFixedPoint : Obligations.SelfJumpIsAFixedPoint := by
  intro e s hs hpc hword
  have hstep : step s = .next ((s.stepTimers.advance s.nextWord).setPc (zext16 e)) := by
    rw [step_eq hs, nextInstr_of_selfJump hword]
    rfl
  refine ⟨_, hstep, rfl, countDown_toNat s.dt, countDown_toNat s.st, fun p hp => ?_⟩
  by_cases hp' : p = .pc
  · subst hp'
    exact BitVec.eq_of_toNat_eq ((zext16_toNat e).trans hpc.symm)
  · refine Piece.same_trans (changesOnly_beforeHandler s s.nextWord p ?_) (changesOnly_setPc _ _ p hp')
    tauto

end Sys2Proof.Machine
end

section
/-! PROOFS. The fetch fault (spec/20_memory.md R41, spec/60_exceptions.md R152). -/

namespace Sys2Proof.Machine

theorem tick_fetchFault {s : State} (h : memSize ≤ s.pc.toNat + 1) :
    tick s = .fault (.memoryOutOfRange (max s.pc.toNat memSize)) := by
  rw [tick, State.fetch16_error h]

/-- Settles O8: the fetch of a tick faults with the larger of PC and the size of memory. -/
theorem fetchBeyondMemoryFaults : Obligations.FetchBeyondMemoryFaults := by
  intro s hdue hpc
  have hfault : memSize ≤ s.pc.toNat + 1 := Nat.succ_le_succ hpc
  rw [step_of_due_none hdue, tick_fetchFault hfault, max_comm, max_def, memSize]

end Sys2Proof.Machine
end

section
/-! PROOFS. Free bytes: the flag left free and the random byte (spec/42_alu.md R91, R104). -/

namespace Sys2Proof.Machine

/-- Settles O24: each flag-setting operation is one `writeFlagged`, which here writes the free byte alone. -/
theorem openPolicyLeavesVfFree : Obligations.OpenPolicyLeavesVfFree := by
  intro i y s hopen hi
  have hwrite (flag result : Byte) :
      s.writeFlagged 15 flag result = (s.setV regVF (Config.flagByte s.draws)).advanceDraws :=
    State.writeFlagged_free ⟨hopen, rfl⟩ flag result
  have hexec : exec i s = .next ((s.setV regVF (Config.flagByte s.draws)).advanceDraws) := by
    simp only [List.mem_cons, List.not_mem_nil, or_false] at hi
    rcases hi with rfl | rfl | rfl | rfl | rfl <;> exact congrArg _ (hwrite _ _)
  refine ⟨_, hexec, State.getV_setV_same s regVF _, rfl, ?_⟩
  exact ((changesOnly_setV s regVF _).mono fun _ hp => .inl hp).trans
    ((changesOnly_advanceDraws _).mono fun _ hp => .inr hp)

/-- Settles O25: one draw and one `setV` of the masked byte. -/
theorem randomByteIsMasked : Obligations.RandomByteIsMasked := by
  intro x kk s
  refine ⟨fun key => decodeOfEncodeIsTheInstruction key (.rnd x kk) rfl, _, rfl, fun k => ?_, rfl, ?_⟩
  · rw [State.getV_setV_same]
    exact BitVec.getLsbD_and
  · exact ((changesOnly_advanceDraws s).mono fun _ hp => .inr hp).trans
      ((changesOnly_setV _ x _).mono fun _ hp => .inl hp)

end Sys2Proof.Machine
end

section
/-! PROOFS. ADD I (spec/43_index_and_memory.md R106). -/

namespace Sys2Proof.Machine

/-- Settles O27: the handler tests the sum against 0xFFFF, so the sum it writes fits in I. -/
theorem addToIndexKeepsTheWholeSum : Obligations.AddToIndexKeepsTheWholeSum := by
  intro x s
  refine ⟨fun key => decodeWord_groupF key x _, fun hfit => ?_, fun hover => if_pos hover⟩
  refine ⟨_, if_neg (Nat.not_lt.2 hfit), ?_, changesOnly_setI s _⟩
  rw [State.setI_i, BitVec.toNat_ofNat, Nat.mod_eq_of_lt (by omega)]

end Sys2Proof.Machine
end

section
/-! PROOFS. The key skips (spec/45_keypad_and_timers.md R119, R120; spec/60_exceptions.md R153). -/

namespace Sys2Proof.Machine

theorem keyNumber_of_eq {b : Byte} {c : KeyCode} (h : b.toNat = c.val) : keyNumber b = .ok c := by
  have hb : b.toNat < 16 := h ▸ c.isLt
  rw [keyNumber, dif_pos hb]
  exact congrArg _ (Fin.ext h)

theorem keyNumber_of_ge {b : Byte} (h : 16 ≤ b.toNat) : keyNumber b = .error (.keyIndexOutOfRange b) :=
  dif_neg (Nat.not_lt.2 h)

/-- Settles O37: each key skip reads its key number, then is `skipIf` of the key's state or its negation. -/
theorem keySkipsTestTheKey : Obligations.KeySkipsTestTheKey := by
  intro x s
  refine ⟨fun key => ⟨decodeWord_groupE key x _, decodeWord_groupE key x _⟩, fun c hc => ⟨?_, ?_⟩,
    fun hover => ⟨?_, ?_⟩⟩
  · simp only [exec, execSkp, keyNumber_of_eq hc]
    exact skipIf_completes s Iff.rfl
  · simp only [exec, execSknp, keyNumber_of_eq hc]
    have hskip := skipIf_completes s (test := !s.getKey c) (p := ¬ s.getKey c = true) (by simp)
    simpa only [ite_not] using hskip
  · simp only [exec, execSkp, keyNumber_of_ge hover]
  · simp only [exec, execSknp, keyNumber_of_ge hover]

end Sys2Proof.Machine
end

section
/-! PROOFS. Images and block transfers: bytes written at consecutive addresses, the decimal digits, registers
stored and loaded (spec/43_index_and_memory.md R108-R111). -/

namespace Sys2Proof.Machine

/-! ### Bytes at consecutive addresses (R40, R137) -/

theorem Memory.read_writeAll_add {size : Nat} {m : Memory} (hm : Memory.wfFrom size 0 m = true) {a : Nat}
    {bs : List Byte} (hfit : a + bs.length ≤ size) {k : Nat} (hk : k < bs.length) :
    Memory.read (Memory.writeAll m a bs) (a + k) = bs[k] := by
  rw [Memory.read_writeAll hm a bs hfit]
  simp [hk]

/-- In a canonical memory an image changes the cells it covers alone. -/
theorem changesOnly_setMem_writeAll {s : State} (hm : s.mem.wf = true) {a : Nat} {bs : List Byte}
    (hfit : a + bs.length ≤ memSize) :
    ChangesOnly (fun p => ∃ k, k < bs.length ∧ p = .mem (a + k)) s
      (s.setMem (Memory.writeAll s.mem a bs)) := by
  intro p hp
  cases p with
  | mem j =>
    refine (Memory.read_writeAll hm a bs hfit j).trans ?_
    split
    · rfl
    · have hout : bs.length ≤ j - a := by
        by_contra hin
        exact hp ⟨j - a, by omega, by congr 1; omega⟩
      rw [List.getElem?_eq_none hout]
      rfl
  | _ => rfl

/-- A run of stores inside a canonical memory completes: each byte at its address and no other change. -/
theorem storeBytes_completes {s : State} (hm : s.mem.wf = true) {a : Nat} {bs : List Byte}
    (hfit : a + bs.length ≤ memSize) :
    ∃ t, finish (s.storeBytes a bs) = .next t ∧
      (∀ k (hk : k < bs.length), Memory.read t.mem (a + k) = bs[k]) ∧
      ChangesOnly (fun p => ∃ k, k < bs.length ∧ p = .mem (a + k)) s t :=
  ⟨_, congrArg finish (State.storeBytes_ok hfit), fun _ hk => Memory.read_writeAll_add hm hfit hk,
    changesOnly_setMem_writeAll hm hfit⟩

/-! ### Decimal digits (R108) -/

theorem hundreds_toNat (b : Byte) : (hundreds b).toNat = b.toNat / 100 := by
  have hb := b.isLt
  rw [hundreds, BitVec.toNat_ofNat, Nat.mod_eq_of_lt (by omega)]

theorem tens_toNat (b : Byte) : (tens b).toNat = b.toNat / 10 % 10 := by
  rw [tens, BitVec.toNat_ofNat, Nat.mod_eq_of_lt (by omega)]

theorem units_toNat (b : Byte) : (units b).toNat = b.toNat % 10 := by
  rw [units, BitVec.toNat_ofNat, Nat.mod_eq_of_lt (by omega)]

/-- Settles O28: the handler is a run of three stores from I. -/
theorem decimalDigitsAreStored : Obligations.DecimalDigitsAreStored := by
  intro x s hm
  refine ⟨fun key => decodeWord_groupF key x _, fun hfit => ?_, fun hover => ?_⟩
  · obtain ⟨t, hexec, hbytes, hframe⟩ :=
      storeBytes_completes hm (bs := [hundreds (s.getV x), tens (s.getV x), units (s.getV x)]) hfit
    refine ⟨t, hexec, ?_, ?_, ?_, hframe.mono ?_⟩
    · exact (congrArg _ (hbytes 0 (by simp))).trans (hundreds_toNat _)
    · exact (congrArg _ (hbytes 1 (by simp))).trans (tens_toNat _)
    · exact (congrArg _ (hbytes 2 (by simp))).trans (units_toNat _)
    · rintro p ⟨k, hk, rfl⟩
      obtain rfl | rfl | rfl : k = 0 ∨ k = 1 ∨ k = 2 := by simp at hk; omega
      · exact .inl rfl
      · exact .inr (.inl rfl)
      · exact .inr (.inr rfl)
  · exact congrArg finish (State.storeBytes_error (by simp) (Nat.lt_succ_of_le hover))

/-! ### Registers stored and loaded (R109, R110) -/

theorem regsThrough_ne_nil (x : Reg) : regsThrough x ≠ [] := by
  simp [← List.length_pos_iff, length_regsThrough]

theorem getElem_regsThrough {x : Reg} {k : Nat} (hk : k < (regsThrough x).length) (hk' : k < 16) :
    (regsThrough x)[k] = ⟨k, hk'⟩ :=
  Fin.ext ((regRun_regsThrough x k hk).trans (Nat.zero_add k))

/-- Storing V0..Vx is a run of stores of their values from I (R109). -/
theorem exec_storeRegs (x : Reg) (s : State) :
    exec (.storeRegs x) s = finish (s.storeBytes (s.indexed 0) ((regsThrough x).map s.getV)) :=
  congrArg finish (State.storeEach_eq (regRun_regsThrough x))

/-- Settles O29: the values of V0..Vx are an image at I. -/
theorem registersAreStored : Obligations.RegistersAreStored := by
  intro x s hm
  have hlen : ((regsThrough x).map s.getV).length = x.val + 1 := by
    rw [List.length_map, length_regsThrough]
  rw [exec_storeRegs]
  refine ⟨fun key => decodeWord_groupF key x _, fun hfit => ?_, fun hover => ?_⟩
  · obtain ⟨t, hexec, hbytes, hframe⟩ :=
      storeBytes_completes hm (a := s.indexed 0) (by rw [hlen]; exact hfit)
    refine ⟨t, hexec, fun r hr => ?_, hframe.mono ?_⟩
    · have hbyte := hbytes r.val (hlen ▸ Nat.lt_succ_of_le hr)
      rwa [List.getElem_map, getElem_regsThrough _ r.isLt] at hbyte
    · rintro p ⟨k, hk, rfl⟩
      rw [hlen] at hk
      exact ⟨⟨k, by omega⟩, Nat.le_of_lt_succ hk, rfl⟩
  · refine congrArg finish (State.storeBytes_error ?_ (hlen ▸ Nat.lt_succ_of_le hover))
    simp [regsThrough_ne_nil]

/-- Settles O30: the handler loads the listed registers, at addresses that rise from I. -/
theorem registersAreLoaded : Obligations.RegistersAreLoaded := by
  intro x s
  refine ⟨fun key => decodeWord_groupF key x _, fun hfit => ?_, fun hover => ?_⟩
  · have hread (r : Reg) (hr : r ∈ regsThrough x) : s.indexed r.val < memSize :=
      Nat.lt_of_le_of_lt (Nat.add_le_add_left (mem_regsThrough.1 hr) _) hfit
    obtain ⟨v', hload, hregs⟩ := State.loadEach_ok hread
    refine ⟨_, congrArg finish hload, fun r hr => ?_, (changesOnly_loadEach hload).mono ?_⟩
    · exact (hregs r).trans (if_pos (mem_regsThrough.2 hr))
    · exact fun p ⟨r, hr, hp⟩ => ⟨r, mem_regsThrough.1 hr, hp⟩
  · refine congrArg finish (State.loadEach_error (regRun_regsThrough x) (regsThrough_ne_nil x) ?_)
    rw [length_regsThrough]
    exact Nat.lt_succ_of_le hover

/-- Settles O31: a store that completed stood inside memory, so the load at the same I does too and reads
back what the store wrote. -/
theorem loadRestoresWhatWasStored : Obligations.LoadRestoresWhatWasStored := by
  intro x s t u hm hstore hi hkept
  have hindexed (k : Nat) : u.indexed k = s.indexed k := by rw [State.indexed, State.indexed, hi]
  obtain ⟨-, hstores, hfaults⟩ := registersAreStored x s hm
  have hfit : s.indexed x.val < 4096 := by
    by_contra hover
    cases hstore.symm.trans (hfaults (Nat.le_of_not_lt hover))
  obtain ⟨t', hstore', hstored, -⟩ := hstores hfit
  cases hstore.symm.trans hstore'
  obtain ⟨-, hloads, -⟩ := registersAreLoaded x u
  obtain ⟨w, hload, hloaded, hframe⟩ := hloads ((hindexed _).trans_lt hfit)
  refine ⟨w, hload, fun r hr => ?_, fun r hr => hframe (.v r) ?_⟩
  · calc w.getV r
        = Memory.read u.mem (u.indexed r.val) := hloaded r hr
      _ = Memory.read t.mem (s.indexed r.val) := by rw [hindexed]; exact hkept r hr
      _ = s.getV r := hstored r hr
  · rintro ⟨q, hq, hp⟩
    cases hp
    exact absurd hr (not_lt_of_ge hq)

end Sys2Proof.Machine
end

section
/-! PROOFS. The draw that stops (spec/44_display.md R115, spec/60_exceptions.md R152), and framebuffer cells as
bits (R113, D5): which instructions write the framebuffer, the value of a normalized pixel, and every step
under `PIXEL_XOR_FORM = normalized`. -/

namespace Sys2Proof.Machine

/-- Settles O36: the refusal is the handler's first test, and the fault that of the first row read out of
memory. -/
theorem drawStopsOutOfMemoryOrOnOpenFlag : Obligations.DrawStopsOutOfMemoryOrOnOpenFlag := by
  intro x y n s
  refine ⟨fun hopen => if_pos hopen, fun hflag ⟨r, hr, hread, hover⟩ => (if_neg hflag).trans ?_⟩
  exact congrArg finish
    (State.drawRows_error (s := s.setDirty true) (Nat.zero_le r) (by omega) hread hover)

/-! ### Which instructions write the framebuffer (R27, R114, R115) -/

/-- An instruction other than CLS and DRW leaves the framebuffer as it is, whatever form memory is in. -/
theorem getFb_of_exec {i : Instr} {s t : State} (hcls : i ≠ .cls) (hdrw : ∀ x y n, i ≠ .drw x y n)
    (h : exec i s = .next t) (k : Nat) : t.getFb k = s.getFb k := by
  cases i with
  | cls => exact absurd rfl hcls
  | drw x y n => exact absurd rfl (hdrw x y n)
  | ret =>
    cases hsp : s.sp with
    | empty => rw [exec_ret_of_empty hsp] at h; cases h
    | top j => rw [exec_ret_of_top hsp] at h; cases h; rfl
  | call nnn =>
    cases hpush : s.sp.push with
    | none => rw [exec_call_of_full hpush] at h; cases h
    | some j => rw [exec_call_of_push hpush] at h; cases h; rfl
  | seImm _ _ | sneImm _ _ | seReg _ _ | sneReg _ _ => cases h; exact State.getFb_skipIf s _ k
  | skp x | sknp x =>
    simp only [exec, execSkp, execSknp] at h
    split at h <;> cases h
    exact State.getFb_skipIf s _ k
  | addReg _ _ | subReg _ _ | shrReg _ _ | subnReg _ _ | shlReg _ _ =>
    cases h; exact State.getFb_writeFlagged s _ _ _ k
  | addIVx x =>
    simp only [exec, execAddIVx] at h
    split at h <;> cases h
    rfl
  | ldBVx x =>
    obtain ⟨-, rfl⟩ := eq_of_storeBytes (by simp) (finish_eq_next.1 h)
    rfl
  | storeRegs x =>
    rw [exec_storeRegs] at h
    obtain ⟨-, rfl⟩ := eq_of_storeBytes (by simp [regsThrough_ne_nil]) (finish_eq_next.1 h)
    rfl
  | loadRegs x => exact changesOnly_loadEach (finish_eq_next.1 h) (.fb k) (by simp)
  | ldVxK x =>
    by_cases hk : s.kblock = .unlocked
    · rw [exec_ldVxK_commits hk] at h; cases h; rfl
    · rw [exec_ldVxK_waits hk] at h; cases h; rfl
  | ldImm _ _ | addImm _ _ | ldReg _ _ | orReg _ _ | andReg _ _ | xorReg _ _ | rnd _ _ | ldI _ | ldFVx _
  | ldVxDt _ | ldDtVx _ | ldStVx _ | jp _ | jpV0 _ | unknownE _ _ | unknownF _ _ | nop0 | nop8Fn8
  | nop8Fn9 | nop8FnA | nop8FnB | nop8FnC | nop8FnD | nop8FnF => cases h; rfl

/-- A draw that completes XORs each cell with the pixel over it (R115). -/
theorem getFb_of_exec_drw {x y : Reg} {n : Nibble} {s t : State} (hw : s.fb.fbWf = true)
    (h : exec (.drw x y n) s = .next t) (k : Nat) :
    t.getFb k = s.getFb k ^^^ s.addedPixel x y n k := by
  simp only [exec, execDrw] at h
  split at h
  · cases h
  · exact getFb_of_drawRows (s := s.setDirty true) hw (finish_eq_next.1 h) k

/-! ### Bits -/

/-- A byte that is 0 or 1. -/
def IsBit (b : Byte) : Prop := b = 0#8 ∨ b = 1#8

theorem isBit_and_one (b : Byte) : IsBit (b &&& 1#8) := by
  revert b; unfold IsBit; decide

theorem IsBit.xor {a b : Byte} (ha : IsBit a) (hb : IsBit b) : IsBit (a ^^^ b) := by
  rcases ha with rfl | rfl <;> rcases hb with rfl | rfl <;> simp [IsBit]

/-- Under `normalized` a draw adds 0 or 1 to a cell (R113, D5). -/
theorem isBit_addedPixel {s : State} (hform : s.cfg.pixelXor = .normalized) (x y : Reg) (n : Nibble)
    (k : Nat) : IsBit (s.addedPixel x y n k) := by
  unfold State.addedPixel spritePixel
  split
  · rw [hform]; exact isBit_and_one _
  · exact .inl rfl

/-! ### Every step -/

theorem isBit_getFb_of_exec {i : Instr} {s t : State} (hform : s.cfg.pixelXor = .normalized)
    (hw : s.fb.fbWf = true) (hbits : ∀ k, IsBit (s.getFb k)) (h : exec i s = .next t) (k : Nat) :
    IsBit (t.getFb k) := by
  by_cases hcls : i = .cls
  · subst hcls; cases h; exact .inl rfl
  by_cases hdrw : ∃ x y n, i = .drw x y n
  · obtain ⟨x, y, n, rfl⟩ := hdrw
    rw [getFb_of_exec_drw hw h]
    exact (hbits k).xor (isBit_addedPixel hform x y n k)
  · rw [getFb_of_exec hcls (fun x y n hi => hdrw ⟨x, y, n, hi⟩) h]
    exact hbits k

/-- A host transaction keeps every cell or clears the framebuffer (R137, R140, R143, R167). -/
theorem isBit_getFb_of_performHostOp {op : HostOp} {s t : State} (hbits : ∀ k, IsBit (s.getFb k))
    (h : performHostOp op s = .next t) (k : Nat) : IsBit (t.getFb k) := by
  obtain ⟨_, -, -, rfl⟩ | ⟨-, rfl⟩ | ⟨c, p, -, rfl⟩ | ⟨-, rfl⟩ := performHostOp_next h
  · exact hbits k
  · exact .inl rfl
  · rw [State.getFb, State.noteKey_fb]; exact hbits k
  · exact hbits k

/-- Settles O57: CLS and a reset leave zeros, a draw XORs bits into bits, and nothing else writes a cell. -/
theorem normalizedCellsStayBits : Obligations.NormalizedCellsStayBits := by
  intro s t hform hw hbits h
  obtain ⟨op, ops, -, hop⟩ | ⟨-, -, hexec⟩ := step_next h
  · exact isBit_getFb_of_performHostOp (s := s.setScript ops) hbits hop
  · exact isBit_getFb_of_exec (s := s.stepTimers.advance s.nextWord) hform hw hbits hexec

end Sys2Proof.Machine
end

section
/-! PROOFS. Host transactions that change the state, and launches (spec/46_host_operations.md R136-R140,
spec/10_state.md R36, R37, spec/70_reset_and_hazards.md R172). -/

namespace Sys2Proof.Machine

/-! ### key_set (R129, R130, R140) -/

theorem changesOnly_setKey (s : State) (c : KeyCode) (p : Bool) :
    ChangesOnly (· = .key c) s (s.setKey c p) := by
  intro q hq
  cases q with
  | key d => exact (State.getKey_setKey s c d p).trans (if_neg fun h => hq (congrArg _ h))
  | _ => rfl

theorem changesOnly_setLastKey (s : State) (c : KeyCode) :
    ChangesOnly (· = .lastKey) s (s.setLastKey c) := by
  intro p hp
  cases p with
  | lastKey => exact absurd rfl hp
  | _ => rfl

theorem changesOnly_noteKey (s : State) (c : KeyCode) (p : Bool) :
    ChangesOnly (fun q => q = .kblock ∨ q = .lastKey) s (s.noteKey c p) := by
  have hlast (u : State) : ChangesOnly (fun q => q = .kblock ∨ q = .lastKey) u (u.setLastKey c) :=
    (changesOnly_setLastKey u c).mono fun _ hq => .inr hq
  unfold State.noteKey
  split_ifs
  · exact ((changesOnly_setKblock s _).mono fun _ hq => .inl hq).trans (hlast _)
  · exact hlast s
  · exact .refl _ s

theorem getKey_noteKey (s : State) (c d : KeyCode) (p : Bool) : (s.noteKey c p).getKey d = s.getKey d := by
  rw [State.getKey, State.noteKey_keys, State.getKey]

theorem performHostOp_keySet_refused {code : Nat} (h : 16 ≤ code) (p : Bool) (s : State) :
    performHostOp (.keySet code p) s = .refused (.keyCodeOutOfRange code) :=
  dif_neg (Nat.not_lt.2 h)

theorem isKeyPressed_refused {code : Nat} (h : 16 ≤ code) (s : State) :
    isKeyPressed s code = .error (.keyCodeOutOfRange code) :=
  dif_neg (Nat.not_lt.2 h)

/-- Settles O44: the event is one `setKey` and one `noteKey`. -/
theorem keySetRecordsTheEvent : Obligations.KeySetRecordsTheEvent := by
  intro p s
  refine ⟨fun c => ⟨_, performHostOp_keySet c p s, ?_, fun h => ?_, fun h => ?_, fun h => ?_, ?_⟩,
    fun code h => ⟨performHostOp_keySet_refused h p s, isKeyPressed_refused h s⟩⟩
  · simp [getKey_noteKey]
  · simp [State.noteKey_kblock, State.noteKey_lastKey, h]
  · simp [State.noteKey_kblock, State.noteKey_lastKey, h]
  · simp [State.noteKey_kblock, State.noteKey_lastKey, h]
  · exact ((changesOnly_setKey s c p).mono fun _ hq => .inl hq).trans
      ((changesOnly_noteKey _ c p).mono fun _ hq => .inr hq)

/-! ### load (R137) -/

/-- An image that fits stands from ORIGIN on, and nothing else changes (R137). -/
theorem hostLoad_completes {s : State} (hm : s.mem.wf = true) {bytes : List Byte}
    (hfit : s.cfg.origin.toNat + bytes.length ≤ memSize) :
    ∃ t, hostLoad bytes s = .next t ∧
      (∀ k (hk : k < bytes.length), Memory.read t.mem (s.cfg.origin.toNat + k) = bytes[k]) ∧
      ChangesOnly (fun p => ∃ k, k < bytes.length ∧ p = .mem (s.cfg.origin.toNat + k)) s t :=
  ⟨_, if_pos hfit, fun _ hk => Memory.read_writeAll_add hm hfit hk, changesOnly_setMem_writeAll hm hfit⟩

theorem hostLoad_refused {s : State} {bytes : List Byte}
    (h : memSize < s.cfg.origin.toNat + bytes.length) : hostLoad bytes s = .refused .loadDoesNotFit :=
  if_neg (Nat.not_le.2 h)

/-- Settles O45: an image either fits or is refused. -/
theorem loadCopiesTheImage : Obligations.LoadCopiesTheImage :=
  fun _ _ hm => ⟨fun hfit => hostLoad_completes hm hfit, fun hover => hostLoad_refused hover⟩

/-! ### construct and reset (R36, R37, R136, R139) -/

theorem hostConstruct_ok {cfg : Config} (h : cfg.origin.toNat ≤ Config.maxOrigin) :
    hostConstruct cfg = .next (State.constructed cfg) :=
  if_pos h

theorem hostConstruct_refused {cfg : Config} (h : Config.maxOrigin < cfg.origin.toNat) :
    hostConstruct cfg = .refused .originOutOfRange :=
  if_neg (Nat.not_le.2 h)

/-- Settles O47: the arrays of the constructed core are replicated values or empty cell lists. -/
theorem constructLeavesTheConstructValues : Obligations.ConstructLeavesTheConstructValues := by
  intro cfg
  refine ⟨fun h => ⟨_, hostConstruct_ok h, fun r => ?_, rfl, rfl, rfl, fun j => ?_, rfl, rfl, fun _ => rfl,
    fun _ => rfl, rfl, fun c => ?_, rfl, rfl, rfl, rfl⟩, fun h => hostConstruct_refused h⟩
  · exact Vector.getElem_replicate r.isLt
  · exact Vector.getElem_replicate j.isLt
  · exact Vector.getElem_replicate c.isLt

/-- Settles O46: as for construct, but V, I and LASTINSN are those of `s`. -/
theorem hostResetLeavesTheResetValues : Obligations.HostResetLeavesTheResetValues := by
  intro s
  refine ⟨hostReset s, rfl, fun _ => rfl, rfl, rfl, rfl, fun j => ?_, rfl, rfl, fun _ => rfl, fun _ => rfl,
    rfl, fun c => ?_, rfl, rfl, rfl, rfl⟩
  · exact Vector.getElem_replicate j.isLt
  · exact Vector.getElem_replicate c.isLt

/-- Settles O52: the reset state is the reset of the constructed core, which O46 and O47 describe. -/
theorem resetStateHasTheDefaultValues : Obligations.ResetStateHasTheDefaultValues := by
  obtain ⟨t, hreset, hv, hi, hpc, hsp, hstack, hdt, hst, hmem, hfb, hdirty, hkeys, hkblock, hlast, hinsn, -⟩ :=
    hostResetLeavesTheResetValues (State.constructed Config.standard)
  obtain ⟨u, hconstruct, hv0, hi0, -, -, -, -, -, -, -, -, -, -, -, hinsn0, -⟩ :=
    (constructLeavesTheConstructValues Config.standard).1 (by decide)
  cases hreset
  cases hconstruct
  exact ⟨hpc, hsp, hstack, hdt, hst, hmem, hfb, hdirty, hkeys, hkblock, hlast,
    fun r => (hv r).trans (hv0 r), hi.trans hi0, hinsn.trans hinsn0⟩

/-- The constructed core meets the invariant: PC is ORIGIN, the stack is zero, no cell is listed (R36). -/
theorem inv_constructed {cfg : Config} (h : cfg.origin.toNat ≤ Config.maxOrigin) :
    Inv (State.constructed cfg) :=
  ⟨h, h.trans (by decide), fun j => by simp [State.constructed, State.getStack], rfl, rfl⟩

/-- Settles O55: the constructed core meets the invariant, and a reset keeps it. -/
theorem resetStateMeetsInvariant : Obligations.ResetStateMeetsInvariant :=
  Inv.hostReset (inv_constructed (cfg := Config.standard) (by decide))

/-! ### FreshLaunch (R172) -/

theorem freshLaunch_of_admissible {cfg : Config} (h : cfg.origin.toNat ≤ Config.maxOrigin)
    (image : List Byte) (keys : List KeyEvent) :
    freshLaunch cfg image keys = hostLoad image ((State.constructed cfg).begin keys) := by
  rw [freshLaunch, hostConstruct_ok h]

theorem freshLaunch_refused {cfg : Config} (h : Config.maxOrigin < cfg.origin.toNat)
    (image : List Byte) (keys : List KeyEvent) :
    freshLaunch cfg image keys = .refused .originOutOfRange := by
  rw [freshLaunch, hostConstruct_refused h]

/-- The constructed core has no tick counted and no result, so the start of a launch sets its script alone. -/
theorem changesOnly_begin_constructed (cfg : Config) (keys : List KeyEvent) :
    ChangesOnly (· = .script) (State.constructed cfg) ((State.constructed cfg).begin keys) := by
  intro p hp
  cases p with
  | script => exact absurd rfl hp
  | _ => rfl

/-- Settles O48: the launch is a load into the constructed core with the script set, and the load keeps PC,
the tick count and the script. -/
theorem freshLaunchStartsTheImage : Obligations.FreshLaunchStartsTheImage := by
  intro cfg image keys
  refine ⟨fun horigin hfit => ?_, fun horigin => freshLaunch_refused horigin image keys,
    fun horigin hover => ?_⟩
  · obtain ⟨t, hload, hbytes, hframe⟩ := hostLoad_completes (s := (State.constructed cfg).begin keys) rfl hfit
    refine ⟨t, (freshLaunch_of_admissible horigin image keys).trans hload, ?_, ?_, ?_, hbytes, ?_⟩
    · exact hframe .pc (by simp)
    · exact hframe .ticks (by simp)
    · exact hframe .script (by simp)
    · exact ((changesOnly_begin_constructed cfg keys).mono fun _ hp => .inl hp).trans
        (hframe.mono fun _ hp => .inr hp)
  · rw [freshLaunch_of_admissible horigin]
    exact hostLoad_refused hover

end Sys2Proof.Machine
end
